-- ==== Sys2Proof/Word.lean ====
section
/-! DEFINITION. The two datum types of the block: a byte and a byte string (00_scope.md R11, R12).
Nothing here is arithmetic; byte-order helpers stand in Decode.lean. -/

namespace Sys2Proof

/-- One byte (`u8`, R11). -/
abbrev Byte := BitVec 8

/-- A finite byte string (`Bytes`, R12). -/
abbrev Bytes := List Byte

end Sys2Proof
end

