-- ==== Sys2Proof/Machine/Params.lean ====
section
/-! DEFINITION. The open parameters of 00_scope.md R8 as records that the decoder, the dispatch and the
descriptor ROM take as arguments, and the spec's default for each. (SEAL_KEY_BYTES is in Config.lean.) -/

namespace Sys2Proof

/-- The codes a SETUP packet is classified by (00_scope.md R8; 30_encoding.md R102, R105). The source
gives only GET_DESCRIPTOR at the device recipient; "the model takes the named parameter as an argument"
(92_eei_decisions.md D3), and R8 lists the recipients too (D4). Log 25. -/
structure RequestCodes where
  /-- `REQ_GET_STATUS`, device (R105) -/
  reqGetStatus : Byte
  /-- `REQ_GET_DESCRIPTOR`, device and interface (R105) -/
  reqGetDescriptor : Byte
  /-- `REQ_SET_CONFIGURATION`, device (R105) -/
  reqSetConfiguration : Byte
  /-- `REQ_SET_IDLE`, interface (R105) -/
  reqSetIdle : Byte
  /-- `REQ_SET_PROTOCOL`, interface (R105) -/
  reqSetProtocol : Byte
  /-- `REC_DEVICE` (R102) -/
  recDevice : BitVec 5
  /-- `REC_INTERFACE` (R102) -/
  recInterface : BitVec 5
  /-- `REC_ENDPOINT` (R102): named by the spec, served by no handler (41_control_requests.md R166) -/
  recEndpoint : BitVec 5
  deriving DecidableEq, Repr

/-- No two recipients share a code, and no two requests of one recipient. 30_encoding.md R106 states it:
"The non-fatal rows are pairwise disjoint", and REC_ENDPOINT is one of the "other" recipients; R105: "The
codes are matched within a recipient". A premise of the statements about decoding; no meaning uses it. -/
abbrev RequestCodes.Distinct (q : RequestCodes) : Prop :=
  [q.recDevice, q.recInterface, q.recEndpoint].Nodup ∧
    [q.reqGetDescriptor, q.reqSetConfiguration, q.reqGetStatus].Nodup ∧
    [q.reqSetIdle, q.reqSetProtocol, q.reqGetDescriptor].Nodup

/-- The parameters that shape bytes of the configuration block (00_scope.md R8). The source gives none
of CFG_VALUE to CFG_MAX_POWER, and "a model must keep all four as parameters" (20_memory.md R53); the
others are open in the same way (92_eei_decisions.md D9 to D11). Log 25. -/
structure DescriptorParams where
  /-- `CFG_VALUE`, bConfigurationValue (R53) -/
  cfgValue : Byte
  /-- `CFG_STRING`, iConfiguration (R53) -/
  cfgString : Byte
  /-- `CFG_ATTRIBUTES`, bmAttributes (R53) -/
  cfgAttributes : Byte
  /-- `CFG_MAX_POWER`, bMaxPower (R53) -/
  cfgMaxPower : Byte
  /-- `HID_REPORT_LEN_FIELD`, wDescriptorLength (R55; 90_conflicts.md C2) -/
  hidReportLenField : BitVec 16
  /-- `EP_IN_ADDRESS` (R56) -/
  epInAddress : Byte
  /-- `EP_OUT_ADDRESS` (R57) -/
  epOutAddress : Byte
  deriving DecidableEq, Repr

/-- The parameters a machine is built with (R8). -/
structure OpenParams where
  codes : RequestCodes
  descriptors : DescriptorParams
  deriving DecidableEq, Repr

/-- The default codes of R8 (log 12). Only `State.reset` and the host's table words take them. -/
def Config.defaultCodes : RequestCodes where
  reqGetStatus := 0x00
  reqGetDescriptor := 0x06
  reqSetConfiguration := 0x09
  reqSetIdle := 0x0A
  reqSetProtocol := 0x0B
  recDevice := 0
  recInterface := 1
  recEndpoint := 2

/-- The default descriptor parameters of R8 (log 13). Only `State.reset` takes them. -/
def Config.defaultDescriptors : DescriptorParams where
  cfgValue := 0x01
  cfgString := 0x04
  cfgAttributes := 0xC0
  cfgMaxPower := 0x00
  hidReportLenField := 34
  epInAddress := 0x81
  epOutAddress := 0x02

/-- The defaults of R8 together. -/
def Config.defaultParams : OpenParams := ⟨Config.defaultCodes, Config.defaultDescriptors⟩

end Sys2Proof
end

