-- ==== Sys2Proof/Config.lean ====
section
/-! DEFINITION. What an implementation fixes and what the spec leaves free: the functional units of
00_scope.md R10, the draws (R13), and the client's sealing key (10_state.md R31).
All of it is opaque: no proof can see a value. The numeric parameters of R7 and R8 stand where
they are used, each under a name: endpoint, INS and P1 codes in Decode.lean, the open parameters of R8
in Machine/Params.lean, fixed descriptor values in Machine/Rom.lean, limits in Machine/Operands.lean. -/

namespace Sys2Proof

/-- A keypair `kp : KP`, opaque (44_u2f_commands.md R231). The number only tells keypairs apart;
its public point and private encoding come from `Units`. DESIGN CHOICE, safe: log 17. -/
structure KeyPair where
  token : Nat
  deriving DecidableEq, Repr, Inhabited

/-- A decoded private key `Priv` (R231), opaque in the same way. DESIGN CHOICE, safe: log 17. -/
structure PrivKey where
  token : Nat
  deriving DecidableEq, Repr, Inhabited

/-- The record `KeyHandle = {private_key, application_id}` (44_u2f_commands.md R232). -/
structure KeyHandle where
  privateKey : Bytes
  applicationId : Bytes
  deriving DecidableEq, Repr, Inhabited

/-- The functional units of 00_scope.md R10, one field each. Their laws (R231 to R233) are stated
in Safety.lean; a claim that needs one takes it as a premise. -/
structure Units where
  /-- `PUBXY(kp)`: the public point's two 32-byte coordinates (R231). -/
  pubXY : KeyPair → BitVec 256 × BitVec 256
  /-- `PRIVENC(kp)`: the SEC1 encoding of the private key (R231). -/
  privEnc : KeyPair → Bytes
  /-- `priv(kp)`: the private key itself (R231). -/
  priv : KeyPair → PrivKey
  /-- `PRIVDEC(bytes)`, partial (R231). -/
  privDec : Bytes → Option PrivKey
  /-- `SEAL(sk, kh, n)`, partial (R232). -/
  sealBox : Bytes → KeyHandle → Bytes → Option Bytes
  /-- `OPEN(sk, bytes)`, partial (R232). -/
  openBox : Bytes → Bytes → Option KeyHandle
  /-- `SIGN(priv, msg, r)`, partial (R233). -/
  sign : PrivKey → Bytes → Bytes → Option Bytes
  deriving Inhabited

/-- The implementation's units: an uninterpreted constant (R10, D24, I9; log 8). -/
opaque Config.units : Units

/-- The n-th draw of the block: a sealing nonce or ECDSA randomness, chosen without law
(00_scope.md R13, I8). A free value, applied to the counter `State.draws` (log 9). -/
opaque Config.draw : Nat → Bytes

/-- By how much the sealing key is longer than the 32 bytes the spec demands (I1). Free (log 10). -/
opaque Config.sealKeyExtra : Nat

/-- The bytes of the client's sealing key. Free (log 10). -/
opaque Config.sealKeyByte : Nat → Byte

/-- `SEAL_KEY_BYTES`: any value of 32 or more (00_scope.md R8, D33). -/
def Config.sealKeyBytes : Nat := 32 + Config.sealKeyExtra

/-- What `C.sealing_key()` answers at the reset that `State.reset` stands for (10_state.md R35). -/
def Config.sealingKey : Bytes := (List.range Config.sealKeyBytes).map Config.sealKeyByte

end Sys2Proof
end

