-- ==== Sys2Proof/Syntax.lean ====
section
/-! DEFINITION. The instruction type: one constructor per row of spec/opcode_table.json, with every
operand the spec gives the row, and the port calls the rows are decoded from (10_state.md R23). -/

namespace Sys2Proof

/-- A URB identifier: opaque, compared for equality only (00_scope.md R9, D35; log 14). -/
abbrev UrbId := Nat

/-- The number of a call: the call instance `k` of a port call, or of an outgoing port-H or port-C
call (60_exceptions.md R285; log 5). -/
abbrev Tag := Nat

/-- A borrowed reference to a transfer buffer (20_memory.md R76): `BUF(id)` of R50 is the `len`
bytes from `base` (log 2). -/
structure BufRef where
  base : Nat
  len : Nat
  deriving DecidableEq, Repr

/-- What a URB brings besides its setup bytes: its id and its transfer buffer (a reused live id: log 22). -/
structure Xfer where
  id : UrbId
  buf : BufRef
  deriving DecidableEq, Repr

/-- The 8 `setup_bytes` `b[0..7]` of a control transfer, in wire order (30_encoding.md R100). -/
structure SetupBytes where
  b0 : Byte
  b1 : Byte
  b2 : Byte
  b3 : Byte
  b4 : Byte
  b5 : Byte
  b6 : Byte
  b7 : Byte
  deriving DecidableEq, Repr

/-- The SETUP fields that are decoded and select nothing (30_encoding.md R107). -/
structure Attrs where
  kind : BitVec 2
  direction : BitVec 1
  wIndex : BitVec 16
  wLength : BitVec 16
  deriving DecidableEq, Repr

/-- The instructions: the 27 rows of the opcode table, in its order. -/
inductive Instr where
  -- SETUP rows (30_encoding.md R106)
  | getDescriptorDevice (x : Xfer) (a : Attrs) (descIndex : Byte)
  | getDescriptorConfiguration (x : Xfer) (a : Attrs) (descIndex : Byte)
  | getDescriptorString (x : Xfer) (a : Attrs) (descIndex : Byte)
  | fatalDeviceGetDescriptorType (x : Xfer) (a : Attrs) (descType descIndex : Byte)
  | setConfiguration (x : Xfer) (a : Attrs) (wValue : BitVec 16)
  | getStatus (x : Xfer) (a : Attrs) (wValue : BitVec 16)
  | fatalDeviceUnknownRequest (x : Xfer) (a : Attrs) (bRequest : Byte) (wValue : BitVec 16)
  | setIdle (x : Xfer) (a : Attrs) (wValue : BitVec 16)
  | setProtocol (x : Xfer) (a : Attrs) (wValue : BitVec 16)
  | getDescriptorHidReport (x : Xfer) (a : Attrs) (descIndex : Byte)
  | fatalInterfaceGetDescriptorType (x : Xfer) (a : Attrs) (descType descIndex : Byte)
  | fatalInterfaceUnknownRequest (x : Xfer) (a : Attrs) (bRequest : Byte) (wValue : BitVec 16)
  | fatalUnknownRecipient (x : Xfer) (a : Attrs) (recipient : BitVec 5) (bRequest : Byte)
      (wValue : BitVec 16)
  -- URB rows (30_encoding.md R108)
  | urbControl (x : Xfer) (setup : SetupBytes)
  | urbDeliver (x : Xfer) (setup : SetupBytes)
  | urbIntake (x : Xfer) (setup : SetupBytes)
  | fatalUnknownEndpoint (x : Xfer) (setup : SetupBytes) (endpoint : Nat)
  -- port-T calls without an encoding (42_endpoint_transfers.md R189, R191)
  | cancel (k : Tag) (id : UrbId)
  | busId (k : Tag)
  | deviceSummary (k : Tag)
  -- APDU rows (30_encoding.md R109 to R112)
  | u2fRegister (k : Tag) (cla p1 p2 : Byte) (request : Bytes) (le : BitVec 16)
  | u2fAuthenticateCheckOnly (k : Tag) (cla p2 : Byte) (request : Bytes) (le : BitVec 16)
  | u2fAuthenticateEnforce (k : Tag) (cla p2 : Byte) (request : Bytes) (le : BitVec 16)
  | u2fAuthenticateSign (k : Tag) (cla p2 : Byte) (request : Bytes) (le : BitVec 16)
  | u2fAuthenticateOtherP1 (k : Tag) (cla p1 p2 : Byte) (request : Bytes) (le : BitVec 16)
  | u2fVersion (k : Tag) (cla p1 p2 : Byte) (request : Bytes) (le : BitVec 16)
  | fatalUnknownIns (k : Tag) (cla ins p1 p2 : Byte) (request : Bytes) (le : BitVec 16)
  deriving DecidableEq, Repr

/-- A call as the outside world makes it (10_state.md R23): `handle_message` of port T with the bytes
the transport put into the buffer, the other port-T operations, and `handle_message` of port A. -/
inductive Call where
  | handleMessage (id : UrbId) (endpoint : Nat) (setup : SetupBytes) (buf : Bytes)
  | removeWaitingRequest (id : UrbId)
  | busId
  | deviceSummary
  | apdu (a : Bytes)
  deriving DecidableEq, Repr

/-- The same call after it has arrived: its buffer placed, its call number assigned. This is what the
decoder reads. -/
inductive PortCall where
  | handleMessage (x : Xfer) (endpoint : Nat) (setup : SetupBytes)
  | removeWaitingRequest (k : Tag) (id : UrbId)
  | busId (k : Tag)
  | deviceSummary (k : Tag)
  | apdu (k : Tag) (a : Bytes)
  deriving DecidableEq, Repr

end Sys2Proof
end

