-- ==== Sys2Proof/Decode.lean ====
section
/-! DEFINITION. The decoders (30_encoding.md, 43_apdu_framing.md) and, after them, the encoder.
Three levels, as the spec has them: a port call by its endpoint (R108), the setup bytes of a control
URB by `classify` (R106) with the machine's request and recipient codes (00_scope.md R8) as an
argument, an APDU by R210 and then by INS and P1 (R111, R112). -/

namespace Sys2Proof

/-! ### Byte order (00_scope.md R12, 20_memory.md R64) -/

/-- `u16le(v)` (R12). -/
def u16le (v : BitVec 16) : Bytes := [v.extractLsb' 0 8, v.extractLsb' 8 8]

/-- `u16be(v)` (R12). -/
def u16be (v : BitVec 16) : Bytes := [v.extractLsb' 8 8, v.extractLsb' 0 8]

/-- `be32(v)` (R12). -/
def be32 (v : BitVec 32) : Bytes :=
  [v.extractLsb' 24 8, v.extractLsb' 16 8, v.extractLsb' 8 8, v.extractLsb' 0 8]

/-- The 32 bytes of a coordinate, most significant first (`X[32]`, R64). -/
def be256 (v : BitVec 256) : Bytes := (List.range 32).map fun i => v.extractLsb' (8 * (31 - i)) 8

/-- `rd16le` of the bytes `b[i]`, `b[i+1]` (R12). -/
def rd16le (first second : Byte) : BitVec 16 := second ++ first

/-- `rd16be` of the bytes `b[i]`, `b[i+1]` (R12). -/
def rd16be (first second : Byte) : BitVec 16 := first ++ second

/-! ### Codes (00_scope.md R7; 30_encoding.md R104, R111, R112) -/

/-- Descriptor-type code DEVICE (R104). -/
def Config.descDevice : Byte := 0x01
/-- Descriptor-type code CONFIGURATION (R104). -/
def Config.descConfiguration : Byte := 0x02
/-- Descriptor-type code STRING (R104). -/
def Config.descString : Byte := 0x03
/-- Descriptor-type code INTERFACE (R104). -/
def Config.descInterface : Byte := 0x04
/-- Descriptor-type code ENDPOINT (R104). -/
def Config.descEndpoint : Byte := 0x05
/-- Descriptor-type code HID (R104). -/
def Config.descHid : Byte := 0x21
/-- Descriptor-type code HID_REPORT (R104). -/
def Config.descHidReport : Byte := 0x22

/-- `EP_CTRL` (R7). -/
def Config.epCtrl : Nat := 0
/-- `EP_IN`: the delivery endpoint (R7, R69; 90_conflicts.md C3). -/
def Config.epIn : Nat := 1
/-- `EP_OUT`: the intake endpoint (R7, R69; 90_conflicts.md C3). -/
def Config.epOut : Nat := 2

/-- INS of REGISTER (R111). -/
def Config.insRegister : Byte := 0x01
/-- INS of AUTHENTICATE (R111). -/
def Config.insAuthenticate : Byte := 0x02
/-- INS of VERSION (R111). -/
def Config.insVersion : Byte := 0x03
/-- P1 of ENFORCE_USER_PRESENCE_AND_SIGN (R112). -/
def Config.p1Enforce : Byte := 0x03
/-- P1 of CHECK_ONLY (R112). -/
def Config.p1CheckOnly : Byte := 0x07
/-- P1 of SIGN (R112). -/
def Config.p1Sign : Byte := 0x08

/-! ### SETUP packets (30_encoding.md R100 to R106) -/

/-- The five fields of a SETUP packet (R100), as the SETUP latch holds them (10_state.md R24). -/
structure Setup where
  bmRequestType : Byte
  bRequest : Byte
  wValue : BitVec 16
  wIndex : BitVec 16
  wLength : BitVec 16
  deriving DecidableEq, Repr

/-- R100: the assembly of the five fields from the 8 bytes. -/
def SetupBytes.fields (b : SetupBytes) : Setup :=
  ⟨b.b0, b.b1, rd16le b.b2 b.b3, rd16le b.b4 b.b5, rd16le b.b6 b.b7⟩

/-- R101: `recipient = bmRequestType & 0x1F`. -/
def Setup.recipient (p : Setup) : BitVec 5 := p.bmRequestType.extractLsb' 0 5
/-- R101: `kind = (bmRequestType >> 5) & 0x3`. -/
def Setup.kind (p : Setup) : BitVec 2 := p.bmRequestType.extractLsb' 5 2
/-- R101: `direction = bmRequestType >> 7`. -/
def Setup.direction (p : Setup) : BitVec 1 := p.bmRequestType.extractLsb' 7 1
/-- R103: `descType = wValue[15:8]`. -/
def Setup.descType (p : Setup) : Byte := p.wValue.extractLsb' 8 8
/-- R103: `descIndex = wValue[7:0]`. -/
def Setup.descIndex (p : Setup) : Byte := p.wValue.extractLsb' 0 8
/-- The fields no dispatch reads (R107). -/
def Setup.attrs (p : Setup) : Attrs := ⟨p.kind, p.direction, p.wIndex, p.wLength⟩

/-- The leaves of the control-request map (R106), one per SETUP row. -/
inductive SetupRow where
  | getDescriptorDevice
  | getDescriptorConfiguration
  | getDescriptorString
  | fatalDeviceGetDescriptorType
  | setConfiguration
  | getStatus
  | fatalDeviceUnknownRequest
  | setIdle
  | setProtocol
  | getDescriptorHidReport
  | fatalInterfaceGetDescriptorType
  | fatalInterfaceUnknownRequest
  | fatalUnknownRecipient
  deriving DecidableEq, Repr

/-- The device branch of R106 (41_control_requests.md R151, R152). An index over 5 of a STRING
request is decided by that row itself (R155). -/
def classifyDevice (q : RequestCodes) (p : Setup) : SetupRow :=
  if p.bRequest = q.reqGetDescriptor then
    if p.descType = Config.descDevice then .getDescriptorDevice
    else if p.descType = Config.descConfiguration then .getDescriptorConfiguration
    else if p.descType = Config.descString then .getDescriptorString
    else .fatalDeviceGetDescriptorType
  else if p.bRequest = q.reqSetConfiguration then .setConfiguration
  else if p.bRequest = q.reqGetStatus then .getStatus
  else .fatalDeviceUnknownRequest

/-- The interface branch of R106 (41_control_requests.md R160). -/
def classifyInterface (q : RequestCodes) (p : Setup) : SetupRow :=
  if p.bRequest = q.reqSetIdle then .setIdle
  else if p.bRequest = q.reqSetProtocol then .setProtocol
  else if p.bRequest = q.reqGetDescriptor then
    if p.descType = Config.descHidReport then .getDescriptorHidReport
    else .fatalInterfaceGetDescriptorType
  else .fatalInterfaceUnknownRequest

/-- `classify(S)` (R106; 41_control_requests.md R150). -/
def classify (q : RequestCodes) (p : Setup) : SetupRow :=
  if p.recipient = q.recDevice then classifyDevice q p
  else if p.recipient = q.recInterface then classifyInterface q p
  else .fatalUnknownRecipient

/-- The SETUP instruction that a control URB `x` with fields `p` carries, every field an operand. -/
def decodeFields (q : RequestCodes) (x : Xfer) (p : Setup) : Instr :=
  match classify q p with
  | .getDescriptorDevice => .getDescriptorDevice x p.attrs p.descIndex
  | .getDescriptorConfiguration => .getDescriptorConfiguration x p.attrs p.descIndex
  | .getDescriptorString => .getDescriptorString x p.attrs p.descIndex
  | .fatalDeviceGetDescriptorType => .fatalDeviceGetDescriptorType x p.attrs p.descType p.descIndex
  | .setConfiguration => .setConfiguration x p.attrs p.wValue
  | .getStatus => .getStatus x p.attrs p.wValue
  | .fatalDeviceUnknownRequest => .fatalDeviceUnknownRequest x p.attrs p.bRequest p.wValue
  | .setIdle => .setIdle x p.attrs p.wValue
  | .setProtocol => .setProtocol x p.attrs p.wValue
  | .getDescriptorHidReport => .getDescriptorHidReport x p.attrs p.descIndex
  | .fatalInterfaceGetDescriptorType =>
      .fatalInterfaceGetDescriptorType x p.attrs p.descType p.descIndex
  | .fatalInterfaceUnknownRequest => .fatalInterfaceUnknownRequest x p.attrs p.bRequest p.wValue
  | .fatalUnknownRecipient => .fatalUnknownRecipient x p.attrs p.recipient p.bRequest p.wValue

/-- The SETUP decoder: total on any 8 bytes. -/
def decodeSetup (q : RequestCodes) (x : Xfer) (b : SetupBytes) : Instr := decodeFields q x b.fields

/-! ### URBs (30_encoding.md R108) -/

/-- R108: a `handle_message` is decoded by its endpoint alone. -/
def decodeUrb (x : Xfer) (endpoint : Nat) (b : SetupBytes) : Instr :=
  if endpoint = Config.epCtrl then .urbControl x b
  else if endpoint = Config.epIn then .urbDeliver x b
  else if endpoint = Config.epOut then .urbIntake x b
  else .fatalUnknownEndpoint x b endpoint

/-! ### APDUs (43_apdu_framing.md R210) -/

/-- A decoded APDU `(CLA, INS, P1, P2, request, Le)` (R210). -/
structure Apdu where
  cla : Byte
  ins : Byte
  p1 : Byte
  p2 : Byte
  request : Bytes
  le : BitVec 16
  deriving DecidableEq, Repr

/-- Why an APDU is `MALFORMED` (43_apdu_framing.md R215, R216): one name per cut. -/
inductive DecodeError where
  /-- fewer than 4 bytes in all (R216) -/
  | headerCut
  /-- byte 4 is not 0x00 (R215) -/
  | noMarker
  /-- fewer than 2 bytes after the marker (R216) -/
  | lengthCut
  /-- fewer than `L1` bytes of data (R216) -/
  | dataCut
  /-- exactly one byte after the data (R216) -/
  | leCut
  deriving DecidableEq, Repr

/-- R210 from `p` just after the data: `Le`, if any; bytes after it are ignored (R217). -/
def decodeLe (rest : Bytes) : Except DecodeError (BitVec 16) :=
  match rest with
  | [] => .ok 0
  | [_] => .error .leCut
  | hi :: lo :: _ => .ok (rd16be hi lo)

/-- R210 from `p` just after `L1`: the Le-only form, or the data and what follows it. -/
def decodeData (l1 : BitVec 16) (rest : Bytes) : Except DecodeError (Bytes × BitVec 16) :=
  match rest with
  | [] => .ok ([], l1)
  | _ :: _ =>
    if rest.length < l1.toNat then .error .dataCut
    else (decodeLe (rest.drop l1.toNat)).map fun le => (rest.take l1.toNat, le)

/-- R210 from `p = 4`: the request and `Le`. -/
def decodeBody (body : Bytes) : Except DecodeError (Bytes × BitVec 16) :=
  match body with
  | [] => .ok ([], 0)
  | marker :: rest =>
    if marker ≠ 0x00 then .error .noMarker
    else
      match rest with
      | hi :: lo :: rest' => decodeData (rd16be hi lo) rest'
      | _ => .error .lengthCut

/-- `decode(a)` (R210): the APDU, or `MALFORMED` by name. -/
def decodeApdu (a : Bytes) : Except DecodeError Apdu :=
  match a with
  | cla :: ins :: p1 :: p2 :: body =>
      (decodeBody body).map fun r => ⟨cla, ins, p1, p2, r.1, r.2⟩
  | _ => .error .headerCut

/-- The row of a well-formed APDU, by INS and then P1 (R111, R112; 44_u2f_commands.md R230). -/
def decodeCommand (k : Tag) (d : Apdu) : Instr :=
  if d.ins = Config.insVersion then .u2fVersion k d.cla d.p1 d.p2 d.request d.le
  else if d.ins = Config.insRegister then .u2fRegister k d.cla d.p1 d.p2 d.request d.le
  else if d.ins = Config.insAuthenticate then
    if d.p1 = Config.p1CheckOnly then .u2fAuthenticateCheckOnly k d.cla d.p2 d.request d.le
    else if d.p1 = Config.p1Enforce then .u2fAuthenticateEnforce k d.cla d.p2 d.request d.le
    else if d.p1 = Config.p1Sign then .u2fAuthenticateSign k d.cla d.p2 d.request d.le
    else .u2fAuthenticateOtherP1 k d.cla d.p1 d.p2 d.request d.le
  else .fatalUnknownIns k d.cla d.ins d.p1 d.p2 d.request d.le

/-! ### Any port call -/

/-- The decoder the step uses: the instruction of an arrived port call, or why its APDU is refused. -/
def decode (c : PortCall) : Except DecodeError Instr :=
  match c with
  | .handleMessage x endpoint b => .ok (decodeUrb x endpoint b)
  | .removeWaitingRequest k id => .ok (.cancel k id)
  | .busId k => .ok (.busId k)
  | .deviceSummary k => .ok (.deviceSummary k)
  | .apdu k a => (decodeApdu a).map (decodeCommand k)

/-- The request an instruction carries: a control URB carries the SETUP row of its setup bytes
(42_endpoint_transfers.md R181); every other instruction is its own request. -/
def Instr.request (i : Instr) (q : RequestCodes) : Instr :=
  match i with
  | .urbControl x b => decodeSetup q x b
  | i => i

/-- A port call decoded down to the request it carries. -/
def decodeRequest (q : RequestCodes) (c : PortCall) : Except DecodeError Instr :=
  (decode c).map fun i => i.request q

/-! ### The encoder -/

/-- The setup bytes of the given fields (R100, R101, read the other way). -/
def encodeFields (recipient : BitVec 5) (a : Attrs) (bRequest : Byte) (wValue : BitVec 16) :
    SetupBytes :=
  ⟨a.direction ++ a.kind ++ recipient, bRequest,
    wValue.extractLsb' 0 8, wValue.extractLsb' 8 8,
    a.wIndex.extractLsb' 0 8, a.wIndex.extractLsb' 8 8,
    a.wLength.extractLsb' 0 8, a.wLength.extractLsb' 8 8⟩

/-- The body of an APDU in the shortest form of R110 that carries the request and Le. -/
def encodeBody (request : Bytes) (le : BitVec 16) : Bytes :=
  if request = [] then
    if le = 0 then [] else 0x00 :: u16be le
  else
    0x00 :: u16be (BitVec.ofNat 16 request.length) ++ request ++ (if le = 0 then [] else u16be le)

/-- The bytes of an APDU (R109, R110; which form: log 21). -/
def encodeApdu (d : Apdu) : Bytes :=
  d.cla :: d.ins :: d.p1 :: d.p2 :: encodeBody d.request d.le

/-- A control URB (endpoint 0) with the given fields. -/
def encodeControl (x : Xfer) (recipient : BitVec 5) (a : Attrs) (bRequest : Byte)
    (wValue : BitVec 16) : PortCall :=
  .handleMessage x Config.epCtrl (encodeFields recipient a bRequest wValue)

/-- The port call of an instruction, from the encodings of 30_encoding.md. -/
def encode (q : RequestCodes) (i : Instr) : PortCall :=
  match i with
  | .getDescriptorDevice x a d =>
      encodeControl x q.recDevice a q.reqGetDescriptor (Config.descDevice ++ d)
  | .getDescriptorConfiguration x a d =>
      encodeControl x q.recDevice a q.reqGetDescriptor (Config.descConfiguration ++ d)
  | .getDescriptorString x a d =>
      encodeControl x q.recDevice a q.reqGetDescriptor (Config.descString ++ d)
  | .fatalDeviceGetDescriptorType x a t d =>
      encodeControl x q.recDevice a q.reqGetDescriptor (t ++ d)
  | .setConfiguration x a v => encodeControl x q.recDevice a q.reqSetConfiguration v
  | .getStatus x a v => encodeControl x q.recDevice a q.reqGetStatus v
  | .fatalDeviceUnknownRequest x a r v => encodeControl x q.recDevice a r v
  | .setIdle x a v => encodeControl x q.recInterface a q.reqSetIdle v
  | .setProtocol x a v => encodeControl x q.recInterface a q.reqSetProtocol v
  | .getDescriptorHidReport x a d =>
      encodeControl x q.recInterface a q.reqGetDescriptor (Config.descHidReport ++ d)
  | .fatalInterfaceGetDescriptorType x a t d =>
      encodeControl x q.recInterface a q.reqGetDescriptor (t ++ d)
  | .fatalInterfaceUnknownRequest x a r v => encodeControl x q.recInterface a r v
  | .fatalUnknownRecipient x a rec r v => encodeControl x rec a r v
  | .urbControl x b => .handleMessage x Config.epCtrl b
  | .urbDeliver x b => .handleMessage x Config.epIn b
  | .urbIntake x b => .handleMessage x Config.epOut b
  | .fatalUnknownEndpoint x b e => .handleMessage x e b
  | .cancel k id => .removeWaitingRequest k id
  | .busId k => .busId k
  | .deviceSummary k => .deviceSummary k
  | .u2fRegister k cla p1 p2 req le =>
      .apdu k (encodeApdu ⟨cla, Config.insRegister, p1, p2, req, le⟩)
  | .u2fAuthenticateCheckOnly k cla p2 req le =>
      .apdu k (encodeApdu ⟨cla, Config.insAuthenticate, Config.p1CheckOnly, p2, req, le⟩)
  | .u2fAuthenticateEnforce k cla p2 req le =>
      .apdu k (encodeApdu ⟨cla, Config.insAuthenticate, Config.p1Enforce, p2, req, le⟩)
  | .u2fAuthenticateSign k cla p2 req le =>
      .apdu k (encodeApdu ⟨cla, Config.insAuthenticate, Config.p1Sign, p2, req, le⟩)
  | .u2fAuthenticateOtherP1 k cla p1 p2 req le =>
      .apdu k (encodeApdu ⟨cla, Config.insAuthenticate, p1, p2, req, le⟩)
  | .u2fVersion k cla p1 p2 req le =>
      .apdu k (encodeApdu ⟨cla, Config.insVersion, p1, p2, req, le⟩)
  | .fatalUnknownIns k cla ins p1 p2 req le => .apdu k (encodeApdu ⟨cla, ins, p1, p2, req, le⟩)

/-! ### SETUP rows -/

/-- The row is read from setup bytes (format SETUP of the opcode table), inside a control URB. -/
def Instr.isSetup (i : Instr) : Bool :=
  match i with
  | .getDescriptorDevice _ _ _ => true
  | .getDescriptorConfiguration _ _ _ => true
  | .getDescriptorString _ _ _ => true
  | .fatalDeviceGetDescriptorType _ _ _ _ => true
  | .setConfiguration _ _ _ => true
  | .getStatus _ _ _ => true
  | .fatalDeviceUnknownRequest _ _ _ _ => true
  | .setIdle _ _ _ => true
  | .setProtocol _ _ _ => true
  | .getDescriptorHidReport _ _ _ => true
  | .fatalInterfaceGetDescriptorType _ _ _ _ => true
  | .fatalInterfaceUnknownRequest _ _ _ _ => true
  | .fatalUnknownRecipient _ _ _ _ _ => true
  | .urbControl _ _ => false
  | .urbDeliver _ _ => false
  | .urbIntake _ _ => false
  | .fatalUnknownEndpoint _ _ _ => false
  | .cancel _ _ => false
  | .busId _ => false
  | .deviceSummary _ => false
  | .u2fRegister _ _ _ _ _ _ => false
  | .u2fAuthenticateCheckOnly _ _ _ _ _ => false
  | .u2fAuthenticateEnforce _ _ _ _ _ => false
  | .u2fAuthenticateSign _ _ _ _ _ => false
  | .u2fAuthenticateOtherP1 _ _ _ _ _ _ => false
  | .u2fVersion _ _ _ _ _ _ => false
  | .fatalUnknownIns _ _ _ _ _ _ _ => false

/-! ### Words of the opcode table -/

/-- Byte `i` of a number, least significant first. -/
def byteOf (w i : Nat) : Byte := BitVec.ofNat 8 (w >>> (8 * i))

/-- The 64-bit little-endian word `S` of R100 as its 8 bytes. -/
def SetupBytes.ofWord (w : Nat) : SetupBytes :=
  ⟨byteOf w 0, byteOf w 1, byteOf w 2, byteOf w 3, byteOf w 4, byteOf w 5, byteOf w 6, byteOf w 7⟩

/-- The four header bytes of the word `HDR` (R109), most significant first. -/
def apduOfWord (w : Nat) : Bytes := [byteOf w 3, byteOf w 2, byteOf w 1, byteOf w 0]

/-- The call that a word of the opcode table stands for. The table numbers the bits of three formats
from 0 alike and a word does not say its format, so it is taken from the width and the value
(log 15): 24 bits, or 32 bits with a value from 2^16 to 2^24 - 1, an APDU header `HDR`; 32 bits with
a value up to 255, an endpoint number; everything else a SETUP word `S`. The URB has id 0 and a
buffer of 64 zero bytes. -/
def tableCall (nbits w : Nat) : Call :=
  if nbits = 24 ∨ (nbits = 32 ∧ 0x10000 ≤ w ∧ w < 0x1000000) then .apdu (apduOfWord w)
  else if nbits = 32 ∧ w < 0x100 then
    .handleMessage 0 w (SetupBytes.ofWord 0) (List.replicate 64 0)
  else .handleMessage 0 Config.epCtrl (SetupBytes.ofWord w) (List.replicate 64 0)

/-- A call once it has arrived: its buffer at `base`, its call number `k`. -/
def Call.arrived (k : Tag) (base : Nat) (c : Call) : PortCall :=
  match c with
  | .handleMessage id endpoint b buf => .handleMessage ⟨id, ⟨base, buf.length⟩⟩ endpoint b
  | .removeWaitingRequest id => .removeWaitingRequest k id
  | .busId => .busId k
  | .deviceSummary => .deviceSummary k
  | .apdu a => .apdu k a

/-- The instruction this decoder reads from a word of the opcode table. An endpoint word gives the
URB row; a SETUP word gives the request the control URB carries, at the default codes, which the table
uses (log 12). -/
def decodeTableWord (nbits w : Nat) : Option Instr :=
  let c := (tableCall nbits w).arrived 0 0
  let d := if nbits = 32 ∧ w < 0x100 then decode c else decodeRequest Config.defaultCodes c
  match d with
  | .ok i => some i
  | .error _ => none

end Sys2Proof
end

