-- ==== Sys2Proof/Machine/State.lean ====
section
/-! DEFINITION. The state vector of the block (10_state.md R22) as plain data, with the suspended
agents and their latches, the transfer buffers, the event trace (R34), the schedule of what the outside
world does next, and the parameters the machine was built with. -/

namespace Sys2Proof.Machine

/-- `FatalReason` (60_exceptions.md R274). -/
inductive FatalReason where
  | unknownRecipient
  | unknownRequest
  | invalidDescriptorType
  | invalidStringIndex
  | unknownIns
  | keyParse
  | cryptoInvalidKey
  | unknownEndpoint
  | handleTooLong
  deriving DecidableEq, Repr

/-- The transfer buffers: a canonical list of address and byte pairs, addresses strictly rising, no
entry equal to `Memory.blank`. -/
abbrev Memory := List Host.Cell

/-- The phase of a delivery (10_state.md R27); a WAITING one holds the number of the outstanding
`H.get_response` call (log 5). -/
inductive Phase where
  | queued
  | waiting (call : Tag)
  deriving DecidableEq, Repr

/-- An entry of `DLVQ` (10_state.md R22, R27): a URB on the delivery path. -/
structure DlvEntry where
  xfer : Xfer
  phase : Phase
  deriving DecidableEq, Repr

/-- The command data of a U2F call that outlive its decoding: the challenge and the application
(10_state.md R25; 30_encoding.md R113, R114). -/
structure Challenge where
  challenge : Bytes
  application : Bytes
  deriving DecidableEq, Repr

/-- Which port-C call a U2F(k) agent is suspended in, with the working values it holds there
(10_state.md R25; 44_u2f_commands.md R237, R242, R245). -/
inductive U2fWait where
  /-- REGISTER step 2 -/
  | newKey (c : Challenge)
  /-- REGISTER step 6 -/
  | approveRegistration (c : Challenge) (kp : KeyPair) (kh : KeyHandle) (handle : Bytes)
  /-- REGISTER step 7 -/
  | createCertificate (c : Challenge) (kp : KeyPair) (handle : Bytes)
  /-- AUTHENTICATE, ENFORCE: the approval -/
  | approveAuthentication (c : Challenge) (kh : KeyHandle)
  /-- SIGN_ASSERTION: the counter -/
  | nextCounter (c : Challenge) (kh : KeyHandle)
  deriving DecidableEq, Repr

/-- An agent suspended in a port-H or port-C call, other than a delivery (60_exceptions.md R275,
R285). -/
inductive Agent where
  /-- INTAKE(id) in `H.handle_message` (R187) -/
  | intake (x : Xfer)
  /-- a cancel agent in `H.remove_waiting_request` (R189) -/
  | cancelling (k : Tag) (id : UrbId)
  /-- U2F(k) in a port-C call, with its APDU latch (R25) -/
  | u2f (k : Tag) (apdu : Apdu) (wait : U2fWait)
  deriving DecidableEq, Repr

/-- A suspended agent and the number of the call it waits for (log 5). -/
structure Suspended where
  call : Tag
  agent : Agent
  deriving DecidableEq, Repr

/-- An answer on port H or port C (10_state.md R23; 44_u2f_commands.md R234). -/
inductive Answer where
  /-- of `H.get_response`; `none` is the timeout (R186) -/
  | response (r : Option Bytes)
  /-- `H.handle_message` returned -/
  | handled
  /-- of `H.remove_waiting_request` -/
  | removed (b : Bool)
  /-- of `C.new_private_key` -/
  | keyPair (kp : Option KeyPair)
  /-- of `C.approve_registration` -/
  | registrationApproved (b : Bool)
  /-- of `C.create_attestation_certificate` -/
  | certificate (cert : Option Bytes)
  /-- of `C.approve_authentication` -/
  | authenticationApproved (b : Bool)
  /-- of `C.next_counter_id` -/
  | counter (c : BitVec 32)
  deriving DecidableEq, Repr

/-- A port-H call of the block (10_state.md R23). -/
inductive HCall where
  | handleMessage (buf : BufRef) (bytes : Bytes)
  | getResponse (id : UrbId) (timeoutMs : Nat)
  | removeWaitingRequest (id : UrbId)
  deriving DecidableEq, Repr

/-- A port-C call of the block (10_state.md R23); `sealing_key` is part of RESET. -/
inductive CCall where
  | newPrivateKey
  | createAttestationCertificate (kp : KeyPair)
  | approveRegistration (kh : KeyHandle)
  | approveAuthentication (kh : KeyHandle)
  | nextCounterId
  deriving DecidableEq, Repr

/-- The attach record of `device_summary` (42_endpoint_transfers.md R191; log 20). -/
structure AttachRecord where
  path : List Char
  busid : List Char
  busnum : Nat
  devnum : Nat
  speed : Nat
  idVendor : BitVec 16
  idProduct : BitVec 16
  bcdDevice : BitVec 16
  bDeviceClass : Byte
  bDeviceSubClass : Byte
  bDeviceProtocol : Byte
  bConfigurationValue : Byte
  bNumConfigurations : Byte
  bNumInterfaces : Byte
  bInterfaceClass : Byte
  bInterfaceSubClass : Byte
  bInterfaceProtocol : Byte
  deriving DecidableEq, Repr

/-- What a port-T call returns to the transport (R189, R191). -/
inductive Returned where
  | flag (b : Bool)
  | text (t : List Char)
  | summary (r : AttachRecord)
  deriving DecidableEq, Repr

/-- A port event (10_state.md R34; log 4). -/
inductive Event where
  /-- a call arrived on port T or A -/
  | call (c : PortCall)
  /-- `FINISH(id)` with `written(id)` and the bytes the buffer then holds (R182) -/
  | finish (x : Xfer) (written : Nat) (bytes : Bytes)
  /-- port-T call `k` returned -/
  | returned (k : Tag) (v : Returned)
  /-- port-A call `k` responded -/
  | respond (k : Tag) (response : Bytes)
  /-- the block called port H -/
  | callH (t : Tag) (c : HCall)
  /-- the block called port C -/
  | callC (t : Tag) (c : CCall)
  /-- port H or C answered the block's call `t`, whether the block took the answer or discarded it -/
  | answered (t : Tag) (a : Answer)
  /-- `FATAL(r)` -/
  | fatal (r : FatalReason)
  /-- `RESET`, with what `C.sealing_key()` answered -/
  | reset (key : Bytes)
  deriving DecidableEq, Repr

/-- What the outside world or the scheduler does next (60_exceptions.md R275; 70_reset_and_hazards.md
R300; log 1). -/
inductive Input where
  /-- a call arrives on port T or A -/
  | call (c : Call)
  /-- the head of `DLVQ` is scheduled (R184) -/
  | acquire
  /-- port H or C answers the block's call `t` -/
  | answer (t : Tag) (a : Answer)
  /-- RESET; `key` is what `C.sealing_key()` answers (R301) -/
  | reset (key : Bytes)
  deriving DecidableEq, Repr

/-- The state of the block (10_state.md R22), its observation (R34) and its schedule. -/
structure State where
  /-- `FATAL` (R26) -/
  fatal : Option FatalReason
  /-- `DLVQ`, oldest first (R27) -/
  dlvq : List DlvEntry
  /-- `SK` (R31) -/
  sk : Bytes
  /-- the SETUP latch; live within a CTRL step only (R24; log 16) -/
  setup : Option Setup
  /-- the suspended INTAKE, cancel and U2F agents with their latches, oldest first; a U2F agent and its
  latches are gone when its call responds or the block goes fatal (R25) -/
  agents : List Suspended
  /-- the bytes of the transfer buffers (20_memory.md R50) -/
  mem : Memory
  /-- the model's own: where the next arriving buffer is placed (log 2) -/
  bufTop : Nat
  /-- the model's own: the number of the next call (log 5) -/
  fresh : Tag
  /-- the model's own: the index of the next draw (log 9) -/
  draws : Nat
  /-- the event trace, oldest first (R34) -/
  trace : List Event
  /-- the model's own: what happens next, first to last (log 1) -/
  inputs : List Input
  /-- the open parameters the machine was built with (00_scope.md R8); no step writes them (log 25) -/
  params : OpenParams
  deriving DecidableEq, Repr

/-- The state after RESET (10_state.md R35, 70_reset_and_hazards.md R301, R302). The spec gives
`FATAL`, `DLVQ`, `SK` and the latches; the model's own fields start empty or at 0 (log 11); the
parameters are the defaults of 00_scope.md R8 (log 12, log 13). -/
def State.reset : State where
  fatal := none
  dlvq := []
  sk := Config.sealingKey
  setup := none
  agents := []
  mem := []
  bufTop := 0
  fresh := 0
  draws := 0
  trace := [.reset Config.sealingKey]
  inputs := []
  params := Config.defaultParams

/-- Why the machine stops. -/
inductive Fault where
  /-- Raised by `step` alone, never by an instruction: `FATAL` holds `r` and no input remains, so no
  RESET comes. "The fatal state is a *fault* in the modelling sense" (60_exceptions.md R273). Safe:
  the block is quiescent there (log 7). -/
  | fatalStop (r : FatalReason)
  deriving DecidableEq, Repr

/-- Why an instruction has no meaning. -/
inductive Refusal where
  /-- Raised by an arm of `exec` that has no meaning yet; there is none. Safe: nothing follows from
  a refusal. -/
  | notModelled (mnemonic : String)
  deriving DecidableEq, Repr

end Sys2Proof.Machine
end

