-- ==== Sys2Proof/Machine/Ops.lean ====
section
/-! DEFINITION. The named operations over the state: buffer bytes, trace, completion of transfers,
calls to ports H and C, the fatal entry (60_exceptions.md R272) and RESET (70_reset_and_hazards.md
R301). -/

namespace Sys2Proof.Machine

/-! ### Bytes of the transfer buffers -/

/-- What an unlisted byte of a transfer buffer reads as (log 3). -/
def Memory.blank : Byte := 0x00

/-- The canonical form of a memory. -/
abbrev Memory.wf (m : Memory) : Prop :=
  m.Pairwise (fun c d => c.1 < d.1) ∧ ∀ c ∈ m, c.2 ≠ Memory.blank

/-- One byte of the buffer memory. -/
def Memory.read : Memory → Nat → Byte
  | [], _ => Memory.blank
  | (b, v) :: m, a => if a = b then v else Memory.read m a

/-- Write one byte, keeping the canonical form: writing what an unlisted byte reads as unlists it. -/
def Memory.write : Memory → Nat → Byte → Memory
  | [], a, v => if v = Memory.blank then [] else [(a, v)]
  | (b, w) :: m, a, v =>
    if a < b then (if v = Memory.blank then (b, w) :: m else (a, v) :: (b, w) :: m)
    else if a = b then (if v = Memory.blank then m else (a, v) :: m)
    else (b, w) :: Memory.write m a v

/-- Write bytes at rising addresses. -/
def Memory.writeBytes : Memory → Nat → Bytes → Memory
  | m, _, [] => m
  | m, a, v :: vs => Memory.writeBytes (Memory.write m a v) (a + 1) vs

/-- The `n` bytes from address `a`. -/
def Memory.readBytes (m : Memory) (a n : Nat) : Bytes := (List.range n).map fun i => m.read (a + i)

/-- The bytes `BUF` holds (20_memory.md R50). -/
def State.bufBytes (s : State) (b : BufRef) : Bytes := s.mem.readBytes b.base b.len

/-- `MemWrite(BUF, 0, n, data[0:n])` with `n = min(len(data), len(buf))` (20_memory.md R67). -/
def State.writeBuf (s : State) (b : BufRef) (data : Bytes) : State :=
  { s with mem := s.mem.writeBytes b.base (data.take b.len) }

/-! ### Events and completions -/

/-- Record a port event (10_state.md R34). -/
def State.emit (s : State) (e : Event) : State := { s with trace := s.trace ++ [e] }

/-- `finish(id)` with `written(id) = n` (00_scope.md R13, 42_endpoint_transfers.md R182). -/
def State.finish (s : State) (x : Xfer) (n : Nat) : State :=
  s.emit (.finish x n (s.bufBytes x.buf))

/-- The prefix write and then `finish(id)` that end an EP0 reply (R182) and a delivery (R185). -/
def State.copyOut (s : State) (x : Xfer) (data : Bytes) : State :=
  (s.writeBuf x.buf data).finish x (min data.length x.buf.len)

/-- Latch the fields of a control transfer (10_state.md R24). -/
def State.latchSetup (s : State) (p : Setup) : State := { s with setup := some p }

/-- `reply(data)` (42_endpoint_transfers.md R181, R182): write, finish, and the latch is gone. -/
def State.reply (s : State) (x : Xfer) (data : Bytes) : State :=
  { s.copyOut x data with setup := none }

/-- `respond(bytes)`: port-A call `k` returns (00_scope.md R13). -/
def State.respond (s : State) (k : Tag) (response : Bytes) : State := s.emit (.respond k response)

/-- A port-T call returns a value to the transport (R189, R191). -/
def State.returnT (s : State) (k : Tag) (v : Returned) : State := s.emit (.returned k v)

/-! ### Suspension points (00_scope.md R6, R13) -/

/-- An agent calls port H and is suspended. -/
def State.callH (s : State) (agent : Agent) (c : HCall) : State :=
  { s with
    agents := s.agents ++ [⟨s.fresh, agent⟩]
    fresh := s.fresh + 1
    trace := s.trace ++ [.callH s.fresh c] }

/-- An agent calls port C and is suspended. -/
def State.callC (s : State) (agent : Agent) (c : CCall) : State :=
  { s with
    agents := s.agents ++ [⟨s.fresh, agent⟩]
    fresh := s.fresh + 1
    trace := s.trace ++ [.callC s.fresh c] }

/-- The agent that waits for call `t` takes its answer and runs on. -/
def State.takeAnswer (s : State) (t : Tag) (a : Answer) : State :=
  { s with
    agents := s.agents.filter (fun w => w.call ≠ t)
    trace := s.trace ++ [.answered t a] }

/-- An answer arrives that the block discards (42_endpoint_transfers.md R190; 60_exceptions.md R273;
70_reset_and_hazards.md R301): a port event, since the trace lists each call and its answer (10_state.md
R34), and nothing else. -/
def State.discard (s : State) (t : Tag) (a : Answer) : State := s.emit (.answered t a)

/-- `draw`: the block has used the next draw (00_scope.md R13). -/
def State.drawn (s : State) : State := { s with draws := s.draws + 1 }

/-! ### The fatal entry and the way out of it -/

/-- The numeric code of a reason (60_exceptions.md R274). -/
def FatalReason.code (r : FatalReason) : Nat :=
  match r with
  | .unknownRecipient => 1
  | .unknownRequest => 2
  | .invalidDescriptorType => 3
  | .invalidStringIndex => 4
  | .unknownIns => 5
  | .keyParse => 6
  | .cryptoInvalidKey => 7
  | .unknownEndpoint => 8
  | .handleTooLong => 9

/-- A suspended U2F call: it waits on port C and holds APDU latches (10_state.md R25). Every other
suspended agent waits on port H. -/
def Suspended.isU2f (w : Suspended) : Bool :=
  match w.agent with
  | .intake _ => false
  | .cancelling _ _ => false
  | .u2f _ _ _ => true

/-- `raise Fatal(r)` (60_exceptions.md R272): FATAL is set, the event recorded, the raising request
ends with nothing written, finished or responded. A CTRL step's latch ends with its request (10_state.md
R24). The APDU latches "live until the call responds or the block goes fatal" (R25): those of every
suspended U2F call are gone, and its answer will be discarded (60_exceptions.md R273). INTAKE and cancel
agents stay, and take no further step. -/
def State.raiseFatal (s : State) (r : FatalReason) : State :=
  { s with
    fatal := some r
    setup := none
    agents := s.agents.filter fun w => !w.isU2f
    trace := s.trace ++ [.fatal r] }

/-- RESET (70_reset_and_hazards.md R301): FATAL cleared, deliveries dropped, agents abandoned, SK read
again. The buffers, the client, the rest of the schedule and the parameters stay. -/
def State.doReset (s : State) (key : Bytes) : State :=
  { s with
    fatal := none
    dlvq := []
    sk := key
    setup := none
    agents := []
    trace := s.trace ++ [.reset key] }

/-- A request's rule runs only when the fatal state is clear (00_scope.md R14); otherwise the call is
accepted and never answered (60_exceptions.md R273). -/
def State.serve (s : State) (run : State → State) : Host.Outcome State Fault Refusal :=
  match s.fatal with
  | none => .next (run s)
  | some _ => .next s

/-- Nothing happens next: a running block waits for its next port call (70_reset_and_hazards.md R302;
log 6); a fatal one stays a fault (60_exceptions.md R273; log 7). -/
def State.idle (s : State) : Host.Outcome State Fault Refusal :=
  match s.fatal with
  | none => .next s
  | some r => .fault (.fatalStop r)

end Sys2Proof.Machine
end

