-- ==== Sys2Proof/Machine/Flags.lean ====
section
/-! DEFINITION. The block has no flags or condition codes (10_state.md R29): the outcome of a U2F
command is the status word that ends its response (30_encoding.md R118). -/

namespace Sys2Proof.Machine

/-- The status words of R118. -/
inductive StatusWord where
  /-- 0x9000 -/
  | noError
  /-- 0x6985 -/
  | conditionsNotSatisfied
  /-- 0x6A80 -/
  | wrongData
  /-- 0x6700 -/
  | wrongLength
  /-- 0x6E00, never emitted -/
  | claNotSupported
  /-- 0x6D00, never emitted -/
  | insNotSupported
  deriving DecidableEq, Repr

/-- The value of a status word (R118). -/
def StatusWord.value (w : StatusWord) : BitVec 16 :=
  match w with
  | .noError => 0x9000
  | .conditionsNotSatisfied => 0x6985
  | .wrongData => 0x6A80
  | .wrongLength => 0x6700
  | .claNotSupported => 0x6E00
  | .insNotSupported => 0x6D00

/-- The two bytes of a status word, big-endian (R118, 20_memory.md R64). -/
def StatusWord.bytes (w : StatusWord) : Bytes := u16be w.value

/-- A response: its data, ended by its status word (44_u2f_commands.md R230). -/
def response (data : Bytes) (w : StatusWord) : Bytes := data ++ w.bytes

/-- A protocol-level error: the status word and nothing else (60_exceptions.md R270). -/
def State.respondError (s : State) (k : Tag) (w : StatusWord) : State := s.respond k (response [] w)

end Sys2Proof.Machine
end

