-- ==== Sys2Proof/Machine/Operands.lean ====
section
/-! DEFINITION. The operand forms of the requests: the request data of REGISTER and AUTHENTICATE, the
messages they sign, the responses they build (30_encoding.md R113 to R117), and the limits of
00_scope.md R7. -/

namespace Sys2Proof

/-- `GET_RESPONSE_TIMEOUT_MS` (R7): an argument only, the block keeps no time (log 19). -/
def Config.getResponseTimeoutMs : Nat := 1000
/-- `MAX_HANDLE_LEN` (R7). -/
def Config.maxHandleLen : Nat := 255
/-- `U2F_CHAL_LEN` (R7). -/
def Config.challengeLen : Nat := 32
/-- `U2F_APP_LEN` (R7). -/
def Config.applicationLen : Nat := 32

namespace Machine

/-! ### Request data -/

/-- `challenge ‖ application`, the first 64 bytes of both requests (R113, R114). -/
def challengeOf (request : Bytes) : Challenge :=
  ⟨request.take Config.challengeLen, (request.drop Config.challengeLen).take Config.applicationLen⟩

/-- REGISTER request data: exactly 64 bytes (R113; 44_u2f_commands.md R237 step 1). -/
def parseRegister (request : Bytes) : Option Challenge :=
  if request.length = Config.challengeLen + Config.applicationLen then some (challengeOf request)
  else none

/-- The length byte of AUTHENTICATE request data, at offset 64 (R114). -/
def handleLenOf (request : Bytes) : Nat :=
  (request.getD (Config.challengeLen + Config.applicationLen) 0).toNat

/-- AUTHENTICATE request data: challenge, application and handle; `none` when shorter than 65 bytes or
when the handle overruns the data; bytes after the handle are ignored (R114; 44_u2f_commands.md
R240). -/
def parseAuthenticate (request : Bytes) : Option (Challenge × Bytes) :=
  if request.length < 65 then none
  else if request.length < 65 + handleLenOf request then none
  else some (challengeOf request, (request.drop 65).take (handleLenOf request))

/-- `OPEN(SK, handle)` as AUTHENTICATE uses it: the unit's answer, and the corner case of R240: `L = 0`
makes the handle empty, which fails at OPEN, "because the empty string is not a CBOR item" (the spec's
own general knowledge, 93_implementation_defined.md G15; PRESUMED, log 23). -/
def openHandle (U : Units) (sk handle : Bytes) : Option KeyHandle :=
  match handle with
  | [] => none
  | _ :: _ => U.openBox sk handle

/-- The checks of R240: the request's challenge and application with the opened handle, or `none` where
the response is 6A80. -/
def openAssertion (U : Units) (sk : Bytes) (request : Bytes) : Option (Challenge × KeyHandle) :=
  match parseAuthenticate request with
  | none => none
  | some (c, handle) =>
    match openHandle U sk handle with
    | none => none
    | some kh => if kh.applicationId = c.application then some (c, kh) else none

/-! ### Values and messages -/

/-- `pk(kp) = [0x04] ‖ X ‖ Y` (44_u2f_commands.md R231). -/
def publicKey (U : Units) (kp : KeyPair) : Bytes :=
  0x04 :: (be256 (U.pubXY kp).1 ++ be256 (U.pubXY kp).2)

/-- The key handle record of REGISTER step 4 (R237). -/
def keyHandleFor (U : Units) (kp : KeyPair) (c : Challenge) : KeyHandle :=
  ⟨U.privEnc kp, c.application⟩

/-- What REGISTER signs: `[0x00] ‖ application ‖ challenge ‖ handle ‖ pk` (R237 step 8). -/
def registerMessage (U : Units) (c : Challenge) (kp : KeyPair) (handle : Bytes) : Bytes :=
  [0x00] ++ c.application ++ c.challenge ++ handle ++ publicKey U kp

/-- What AUTHENTICATE signs: `application ‖ [0x01] ‖ be32(ctr) ‖ challenge` (R245). -/
def assertionMessage (c : Challenge) (ctr : BitVec 32) : Bytes :=
  c.application ++ [0x01] ++ be32 ctr ++ c.challenge

/-! ### Responses -/

/-- The REGISTER success response (R115; R237 step 10). -/
def registerResponse (U : Units) (kp : KeyPair) (handle cert sig : Bytes) : Bytes :=
  response
    ([0x05] ++ publicKey U kp ++ [BitVec.ofNat 8 handle.length] ++ handle ++ cert ++ sig) .noError

/-- The AUTHENTICATE success response (R116; R245). -/
def assertionResponse (ctr : BitVec 32) (sig : Bytes) : Bytes :=
  response ([0x01] ++ be32 ctr ++ sig) .noError

/-- `ascii(s)` (00_scope.md R12). -/
def ascii (s : List Char) : Bytes := s.map fun c => BitVec.ofNat 8 c.toNat

/-- The VERSION response (R117). -/
def versionResponse : Bytes := response (ascii ['U', '2', 'F', '_', 'V', '2']) .noError

end Machine

end Sys2Proof
end

