-- ==== Sys2Proof/Machine/Rom.lean ====
section
/-! DEFINITION. The descriptor ROM (20_memory.md R50 to R63), a constant: each image assembled from its
fields in the order and widths the spec lists, little-endian (R64). Images with an open parameter take
the parameters as an argument (R53; 00_scope.md R8). -/

namespace Sys2Proof

/-! ### Fixed parameters (00_scope.md R7) -/

/-- `EP0_MAX_PACKET` (R7). -/
def Config.ep0MaxPacket : Byte := 64
/-- `EP_MAX_PACKET` (R7). -/
def Config.epMaxPacket : BitVec 16 := 64
/-- `EP_INTERVAL` (R7). -/
def Config.epInterval : Byte := 255
/-- `STRING_COUNT` (R7): indices 0 to 5. -/
def Config.stringCount : Nat := 6

namespace Machine

/-! ### Device descriptor (R52) -/

/-- idVendor (R52). -/
def Rom.idVendor : BitVec 16 := 0x0000
/-- idProduct (R52). -/
def Rom.idProduct : BitVec 16 := 0x0000
/-- bcdDevice (R52). -/
def Rom.bcdDevice : BitVec 16 := 0x0001
/-- bDeviceClass (R52). -/
def Rom.bDeviceClass : Byte := 0x00
/-- bDeviceSubClass (R52). -/
def Rom.bDeviceSubClass : Byte := 0x00
/-- bDeviceProtocol (R52). -/
def Rom.bDeviceProtocol : Byte := 0x00
/-- bNumConfigurations (R52). -/
def Rom.bNumConfigurations : Byte := 0x01

/-- `ROM(DEV)` (R52): bLength, bDescriptorType, bcdUSB, class, subclass, protocol, bMaxPacketSize0,
idVendor, idProduct, bcdDevice, iManufacturer, iProduct, iSerialNumber, bNumConfigurations. -/
def Rom.device : Bytes :=
  [0x12, Config.descDevice] ++ u16le 0x0110 ++
    [Rom.bDeviceClass, Rom.bDeviceSubClass, Rom.bDeviceProtocol, Config.ep0MaxPacket] ++
    u16le Rom.idVendor ++ u16le Rom.idProduct ++ u16le Rom.bcdDevice ++
    [0x01, 0x02, 0x03, Rom.bNumConfigurations]

/-! ### Configuration block (R53 to R58) -/

/-- bNumInterfaces (R53). -/
def Rom.bNumInterfaces : Byte := 0x01
/-- bInterfaceClass, HID (R54). -/
def Rom.bInterfaceClass : Byte := 0x03
/-- bInterfaceSubClass (R54). -/
def Rom.bInterfaceSubClass : Byte := 0x00
/-- bInterfaceProtocol (R54). -/
def Rom.bInterfaceProtocol : Byte := 0x00

/-- The interface descriptor (R54): bLength, type, number, alternate setting, endpoints, class,
subclass, protocol, iInterface. -/
def Rom.interface : Bytes :=
  [0x09, Config.descInterface, 0x00, 0x00, 0x02, Rom.bInterfaceClass, Rom.bInterfaceSubClass,
    Rom.bInterfaceProtocol, 0x05]

/-- The HID descriptor (R55): bLength, type, bcdHID, country, one sub-descriptor, its type, its length
field. -/
def Rom.hid (p : DescriptorParams) : Bytes :=
  [0x09, Config.descHid] ++ u16le 0x0101 ++ [0x00, 0x01, Config.descHidReport] ++
    u16le p.hidReportLenField

/-- An interrupt endpoint's descriptor at the given address (R56, R57): bLength, type, address,
bmAttributes, wMaxPacketSize, bInterval. -/
def Rom.endpoint (address : Byte) : Bytes :=
  [0x07, Config.descEndpoint, address, 0x03] ++ u16le Config.epMaxPacket ++ [Config.epInterval]

/-- The descriptors that follow the configuration descriptor in the block, in order (R58). -/
def Rom.configurationTail (p : DescriptorParams) : Bytes :=
  Rom.interface ++ Rom.hid p ++ Rom.endpoint p.epInAddress ++ Rom.endpoint p.epOutAddress

/-- The configuration descriptor (R53): bLength, type, wTotalLength (its own 9 bytes and the rest of
the block), bNumInterfaces, and the four parameters bConfigurationValue, iConfiguration, bmAttributes,
bMaxPower. -/
def Rom.configuration (p : DescriptorParams) : Bytes :=
  [0x09, Config.descConfiguration] ++
    u16le (BitVec.ofNat 16 (9 + (Rom.configurationTail p).length)) ++
    [Rom.bNumInterfaces, p.cfgValue, p.cfgString, p.cfgAttributes, p.cfgMaxPower]

/-- `ROM(CFGBLK)` (R58; 90_conflicts.md C1): one configuration descriptor and the other four. -/
def Rom.configurationBlock (p : DescriptorParams) : Bytes :=
  Rom.configuration p ++ Rom.configurationTail p

/-! ### Report map (R59) -/

/-- `ROM(REPORT)`: the 30 bytes listed (R59; 90_conflicts.md C2). -/
def Rom.reportMap : Bytes :=
  [0x06, 0xD0, 0xF1, 0x09, 0x01, 0xA1, 0x01, 0x09, 0x20, 0x14, 0x25, 0xFF, 0x75, 0x08, 0x95, 0x40,
    0x81, 0x02] ++
  [0x09, 0x21, 0x14, 0x25, 0xFF, 0x75, 0x08, 0x95, 0x40, 0x91, 0x02, 0xC0]

/-! ### Strings (R61, R62) -/

/-- `utf16le(s)` for the block's ASCII strings: each code followed by 0x00 (00_scope.md R12). -/
def utf16le (s : List Char) : Bytes := s.flatMap fun c => u16le (BitVec.ofNat 16 c.toNat)

/-- The text of string `i`, 1 to 5 (R62). -/
def Rom.text (i : Nat) : List Char :=
  match i with
  | 1 => ['N', 'o', ' ', 'C', 'o', 'm', 'p', 'a', 'n', 'y']
  | 2 => ['V', 'i', 'r', 't', 'u', 'a', 'l', ' ', 'F', 'I', 'D', 'O']
  | 3 => ['N', 'o', ' ', 'S', 'e', 'r', 'i', 'a', 'l', ' ', 'N', 'u', 'm', 'b', 'e', 'r']
  | 4 => ['S', 't', 'r', 'i', 'n', 'g', ' ', '4']
  | 5 => ['D', 'e', 'f', 'a', 'u', 'l', 't', ' ', 'I', 'n', 't', 'e', 'r', 'f', 'a', 'c', 'e']
  | _ => []

/-- `payload(i)` (R61): the language ID 0x0409 for index 0, else the text. -/
def Rom.payload (i : Nat) : Bytes := if i = 0 then u16le 0x0409 else utf16le (Rom.text i)

/-- `STR(i)` (R61): `[2 + len(payload), 0x03] ‖ payload`. -/
def Rom.string (i : Nat) : Bytes :=
  [BitVec.ofNat 8 (2 + (Rom.payload i).length), Config.descString] ++ Rom.payload i

end Machine

end Sys2Proof
end

