-- ==== Sys2Proof/Machine/Control.lean ====
section
/-! DEFINITION. EP0 control requests (41_control_requests.md R150 to R166) and the control URB that
carries one (42_endpoint_transfers.md R181). -/

namespace Sys2Proof.Machine

/-- GET_DESCRIPTOR(DEVICE) (R153). -/
def execGetDescriptorDevice (x : Xfer) (_a : Attrs) (_descIndex : Byte) (s : State) :
    Host.Outcome State Fault Refusal :=
  s.serve fun s => s.reply x Rom.device

/-- GET_DESCRIPTOR(CONFIGURATION) (R154). -/
def execGetDescriptorConfiguration (x : Xfer) (_a : Attrs) (_descIndex : Byte) (s : State) :
    Host.Outcome State Fault Refusal :=
  s.serve fun s => s.reply x (Rom.configurationBlock s.params.descriptors)

/-- GET_DESCRIPTOR(STRING, i) (R155): an index over 5 is fatal. -/
def execGetDescriptorString (x : Xfer) (_a : Attrs) (descIndex : Byte) (s : State) :
    Host.Outcome State Fault Refusal :=
  s.serve fun s =>
    if descIndex.toNat < Config.stringCount then s.reply x (Rom.string descIndex.toNat)
    else s.raiseFatal .invalidStringIndex

/-- Device GET_DESCRIPTOR with any other type (R156). -/
def execFatalDeviceGetDescriptorType (_x : Xfer) (_a : Attrs) (_descType _descIndex : Byte)
    (s : State) : Host.Outcome State Fault Refusal :=
  s.serve fun s => s.raiseFatal .invalidDescriptorType

/-- SET_CONFIGURATION (R157): nothing is latched (10_state.md R30). -/
def execSetConfiguration (x : Xfer) (_a : Attrs) (_wValue : BitVec 16) (s : State) :
    Host.Outcome State Fault Refusal :=
  s.serve fun s => s.reply x []

/-- GET_STATUS (R158): the one byte 0x01. -/
def execGetStatus (x : Xfer) (_a : Attrs) (_wValue : BitVec 16) (s : State) :
    Host.Outcome State Fault Refusal :=
  s.serve fun s => s.reply x [0x01]

/-- Unknown device request (R159). -/
def execFatalDeviceUnknownRequest (_x : Xfer) (_a : Attrs) (_bRequest : Byte)
    (_wValue : BitVec 16) (s : State) : Host.Outcome State Fault Refusal :=
  s.serve fun s => s.raiseFatal .unknownRequest

/-- SET_IDLE (R161). -/
def execSetIdle (x : Xfer) (_a : Attrs) (_wValue : BitVec 16) (s : State) :
    Host.Outcome State Fault Refusal :=
  s.serve fun s => s.reply x []

/-- SET_PROTOCOL (R162). -/
def execSetProtocol (x : Xfer) (_a : Attrs) (_wValue : BitVec 16) (s : State) :
    Host.Outcome State Fault Refusal :=
  s.serve fun s => s.reply x []

/-- GET_DESCRIPTOR(HID_REPORT), interface recipient (R163). -/
def execGetDescriptorHidReport (x : Xfer) (_a : Attrs) (_descIndex : Byte) (s : State) :
    Host.Outcome State Fault Refusal :=
  s.serve fun s => s.reply x Rom.reportMap

/-- Interface GET_DESCRIPTOR with any other type (R164). -/
def execFatalInterfaceGetDescriptorType (_x : Xfer) (_a : Attrs) (_descType _descIndex : Byte)
    (s : State) : Host.Outcome State Fault Refusal :=
  s.serve fun s => s.raiseFatal .invalidDescriptorType

/-- Unknown interface request (R165). -/
def execFatalInterfaceUnknownRequest (_x : Xfer) (_a : Attrs) (_bRequest : Byte)
    (_wValue : BitVec 16) (s : State) : Host.Outcome State Fault Refusal :=
  s.serve fun s => s.raiseFatal .unknownRequest

/-- Unknown recipient (R166). -/
def execFatalUnknownRecipient (_x : Xfer) (_a : Attrs) (_recipient : BitVec 5) (_bRequest : Byte)
    (_wValue : BitVec 16) (s : State) : Host.Outcome State Fault Refusal :=
  s.serve fun s => s.raiseFatal .unknownRecipient

/-- The CTRL step on its SETUP latch: the recipient dispatch R150, with the machine's own codes
(00_scope.md R8), and what it leads to. Without a live
latch there is no control transfer and nothing happens. -/
def runControl (x : Xfer) (s : State) : Host.Outcome State Fault Refusal :=
  match s.setup with
  | none => .next s
  | some p =>
    match classify s.params.codes p with
    | .getDescriptorDevice => execGetDescriptorDevice x p.attrs p.descIndex s
    | .getDescriptorConfiguration => execGetDescriptorConfiguration x p.attrs p.descIndex s
    | .getDescriptorString => execGetDescriptorString x p.attrs p.descIndex s
    | .fatalDeviceGetDescriptorType =>
        execFatalDeviceGetDescriptorType x p.attrs p.descType p.descIndex s
    | .setConfiguration => execSetConfiguration x p.attrs p.wValue s
    | .getStatus => execGetStatus x p.attrs p.wValue s
    | .fatalDeviceUnknownRequest => execFatalDeviceUnknownRequest x p.attrs p.bRequest p.wValue s
    | .setIdle => execSetIdle x p.attrs p.wValue s
    | .setProtocol => execSetProtocol x p.attrs p.wValue s
    | .getDescriptorHidReport => execGetDescriptorHidReport x p.attrs p.descIndex s
    | .fatalInterfaceGetDescriptorType =>
        execFatalInterfaceGetDescriptorType x p.attrs p.descType p.descIndex s
    | .fatalInterfaceUnknownRequest =>
        execFatalInterfaceUnknownRequest x p.attrs p.bRequest p.wValue s
    | .fatalUnknownRecipient =>
        execFatalUnknownRecipient x p.attrs p.recipient p.bRequest p.wValue s

/-- CONTROL, endpoint 0 (42_endpoint_transfers.md R181): latch the SETUP fields, dispatch, reply or
raise, all in one atomic step. -/
def execUrbControl (x : Xfer) (b : SetupBytes) (s : State) : Host.Outcome State Fault Refusal :=
  match s.fatal with
  | none => runControl x (s.latchSetup b.fields)
  | some _ => .next s

end Sys2Proof.Machine
end

