-- ==== Sys2Proof/Machine/Endpoint.lean ====
section
/-! DEFINITION. Endpoint transfers, cancellation and attach record (42_endpoint_transfers.md R183 to
R191): the arrival of each call, and the later steps of the delivery, intake and cancel agents. -/

namespace Sys2Proof.Machine

/-! ### EP1 delivery -/

/-- DELIVER arrival (R183): queued at the tail, nothing written, `on_finish` not invoked. -/
def execUrbDeliver (x : Xfer) (_b : SetupBytes) (s : State) : Host.Outcome State Fault Refusal :=
  s.serve fun s => { s with dlvq := s.dlvq ++ [⟨x, .queued⟩] }

/-- The delivery lock is held exactly when the head of `DLVQ` is WAITING (10_state.md R28). -/
def State.lockHeld (s : State) : Bool :=
  match s.dlvq with
  | ⟨_, .waiting _⟩ :: _ => true
  | _ => false

/-- DELIVER acquire (R184): a QUEUED head, with no entry WAITING, takes the lock and calls
`H.get_response(id, 1000)`. When it is not enabled (FATAL, an empty queue, or the lock held) nothing
happens. -/
def State.acquire (s : State) : State :=
  match s.fatal, s.dlvq with
  | none, ⟨x, .queued⟩ :: rest =>
    if rest.all (fun e => e.phase = .queued) then
      { s with
        dlvq := ⟨x, .waiting s.fresh⟩ :: rest
        fresh := s.fresh + 1
        trace := s.trace ++ [.callH s.fresh (.getResponse x.id Config.getResponseTimeoutMs)] }
    else s
  | _, _ => s

/-- The WAITING head receives its answer: with data it completes (R185: prefix write, then finish, then
the lock is free); on `none` it leaves with nothing written and no finish (R186). -/
def State.deliverAnswer (s : State) (t : Tag) (x : Xfer) (rest : List DlvEntry)
    (r : Option Bytes) : State :=
  let s' := { s with dlvq := rest, trace := s.trace ++ [.answered t (.response r)] }
  match r with
  | some data => s'.copyOut x data
  | none => s'

/-! ### EP2 intake -/

/-- INTAKE (R187), first step: the buffer is handed to `H.handle_message`, unread by the block. -/
def execUrbIntake (x : Xfer) (_b : SetupBytes) (s : State) : Host.Outcome State Fault Refusal :=
  s.serve fun s => s.callH (.intake x) (.handleMessage x.buf (s.bufBytes x.buf))

/-- INTAKE (R187), second step: `finish(id)` with `written = 0`. -/
def State.intakeReturned (s : State) (x : Xfer) : State := s.finish x 0

/-- Unknown endpoint (R188). -/
def execFatalUnknownEndpoint (_x : Xfer) (_b : SetupBytes) (_endpoint : Nat) (s : State) :
    Host.Outcome State Fault Refusal :=
  s.serve fun s => s.raiseFatal .unknownEndpoint

/-! ### Cancellation -/

/-- `remove_waiting_request(id)` (R189), first step: ask H. -/
def execCancel (k : Tag) (id : UrbId) (s : State) : Host.Outcome State Fault Refusal :=
  s.serve fun s => s.callH (.cancelling k id) (.removeWaitingRequest id)

/-- R189, second step: on `true` every entry with this id leaves `DLVQ`, with no write and no finish;
H's answer is returned. -/
def State.cancelAnswered (s : State) (k : Tag) (id : UrbId) (b : Bool) : State :=
  if b then
    { s with dlvq := s.dlvq.filter (fun e => e.xfer.id ≠ id) }.returnT k (.flag true)
  else s.returnT k (.flag false)

/-! ### Attach record -/

/-- `busid` (R191). -/
def busIdText : List Char := ['2', '-', '2']

/-- The attach record (R191): the listed values, and the fields copied from the descriptors,
one of them a parameter. -/
def attachRecord (p : DescriptorParams) : AttachRecord where
  path := ['/', 'd', 'e', 'v', 'i', 'c', 'e', '/', '0']
  busid := busIdText
  busnum := 2
  devnum := 2
  speed := 2
  idVendor := Rom.idVendor
  idProduct := Rom.idProduct
  bcdDevice := Rom.bcdDevice
  bDeviceClass := Rom.bDeviceClass
  bDeviceSubClass := Rom.bDeviceSubClass
  bDeviceProtocol := Rom.bDeviceProtocol
  bConfigurationValue := p.cfgValue
  bNumConfigurations := Rom.bNumConfigurations
  bNumInterfaces := Rom.bNumInterfaces
  bInterfaceClass := Rom.bInterfaceClass
  bInterfaceSubClass := Rom.bInterfaceSubClass
  bInterfaceProtocol := Rom.bInterfaceProtocol

/-- `bus_id()` (R191). -/
def execBusId (k : Tag) (s : State) : Host.Outcome State Fault Refusal :=
  s.serve fun s => s.returnT k (.text busIdText)

/-- `device_summary()` (R191). -/
def execDeviceSummary (k : Tag) (s : State) : Host.Outcome State Fault Refusal :=
  s.serve fun s => s.returnT k (.summary (attachRecord s.params.descriptors))

end Sys2Proof.Machine
end

