-- ==== Sys2Proof/Machine/U2f.lean ====
section
/-! DEFINITION. The U2F commands (44_u2f_commands.md R236 to R246): what each does when its APDU
arrives, and what the suspended call does at each port-C answer. -/

namespace Sys2Proof.Machine

/-! ### VERSION, unknown INS, malformed APDU -/

/-- VERSION (R236): header, data and Le ignored. -/
def execU2fVersion (k : Tag) (_cla _p1 _p2 : Byte) (_request : Bytes) (_le : BitVec 16)
    (s : State) : Host.Outcome State Fault Refusal :=
  s.serve fun s => s.respond k versionResponse

/-- Unknown INS (R246). -/
def execFatalUnknownIns (_k : Tag) (_cla _ins _p1 _p2 : Byte) (_request : Bytes)
    (_le : BitVec 16) (s : State) : Host.Outcome State Fault Refusal :=
  s.serve fun s => s.raiseFatal .unknownIns

/-- A malformed APDU responds 6A80, whichever way it is malformed (43_apdu_framing.md R219). -/
def rejectApdu (k : Tag) (_e : DecodeError) (s : State) : Host.Outcome State Fault Refusal :=
  s.serve fun s => s.respondError k .wrongData

/-! ### REGISTER (R237) -/

/-- REGISTER, steps 1 and 2: the length check, then `C.new_private_key()`. -/
def execU2fRegister (k : Tag) (cla p1 p2 : Byte) (request : Bytes) (le : BitVec 16) (s : State) :
    Host.Outcome State Fault Refusal :=
  s.serve fun s =>
    match parseRegister request with
    | none => s.respondError k .wrongData
    | some c =>
        s.callC (.u2f k ⟨cla, Config.insRegister, p1, p2, request, le⟩ (.newKey c)) .newPrivateKey

/-- Steps 2 to 6: the key has come; seal its handle and ask for approval. -/
def registerWithKey (U : Units) (k : Tag) (d : Apdu) (c : Challenge) (okp : Option KeyPair)
    (s : State) : State :=
  match okp with
  | none => s.raiseFatal .keyParse
  | some kp =>
    let kh := keyHandleFor U kp c
    match U.sealBox s.sk kh (Config.draw s.draws) with
    | none => s.drawn.raiseFatal .cryptoInvalidKey
    | some handle =>
        s.drawn.callC (.u2f k d (.approveRegistration c kp kh handle)) (.approveRegistration kh)

/-- Steps 6 and 7: the user has answered; ask for the certificate. -/
def registerApproved (k : Tag) (d : Apdu) (c : Challenge) (kp : KeyPair) (handle : Bytes)
    (ok : Bool) (s : State) : State :=
  if ok then
    s.callC (.u2f k d (.createCertificate c kp handle)) (.createAttestationCertificate kp)
  else s.respondError k .conditionsNotSatisfied

/-- Steps 7 to 10: the certificate has come; sign, check the handle's length, respond. -/
def registerWithCertificate (U : Units) (k : Tag) (c : Challenge) (kp : KeyPair) (handle : Bytes)
    (oc : Option Bytes) (s : State) : State :=
  match oc with
  | none => s.raiseFatal .cryptoInvalidKey
  | some cert =>
    match U.sign (U.priv kp) (registerMessage U c kp handle) (Config.draw s.draws) with
    | none => s.drawn.raiseFatal .cryptoInvalidKey
    | some sig =>
      if Config.maxHandleLen < handle.length then s.drawn.raiseFatal .handleTooLong
      else s.drawn.respond k (registerResponse U kp handle cert sig)

/-! ### AUTHENTICATE (R240 to R245) -/

/-- The common part (R240), then the branch of the control byte. -/
def authenticate (U : Units) (k : Tag) (request : Bytes)
    (branch : Challenge → KeyHandle → State → State) (s : State) : State :=
  match openAssertion U s.sk request with
  | none => s.respondError k .wrongData
  | some (c, kh) => branch c kh s

/-- SIGN_ASSERTION (R245), up to the counter call. -/
def signAssertion (k : Tag) (d : Apdu) (c : Challenge) (kh : KeyHandle) (s : State) : State :=
  s.callC (.u2f k d (.nextCounter c kh)) .nextCounterId

/-- The CHECK_ONLY branch (R241). -/
def checkOnlyBranch (k : Tag) (_c : Challenge) (_kh : KeyHandle) (s : State) : State :=
  s.respondError k .conditionsNotSatisfied

/-- The ENFORCE branch (R242), up to the approval. -/
def enforceBranch (k : Tag) (d : Apdu) (c : Challenge) (kh : KeyHandle) (s : State) : State :=
  s.callC (.u2f k d (.approveAuthentication c kh)) (.approveAuthentication kh)

/-- The branch of any other control byte (R244). -/
def otherP1Branch (k : Tag) (_c : Challenge) (_kh : KeyHandle) (s : State) : State :=
  s.respondError k .wrongLength

/-- AUTHENTICATE, P1 = 0x07 (R240, R241). -/
def execU2fAuthenticateCheckOnly (k : Tag) (_cla _p2 : Byte) (request : Bytes)
    (_le : BitVec 16) (s : State) : Host.Outcome State Fault Refusal :=
  s.serve fun s => authenticate Config.units k request (checkOnlyBranch k) s

/-- AUTHENTICATE, P1 = 0x03 (R240, R242). -/
def execU2fAuthenticateEnforce (k : Tag) (cla p2 : Byte) (request : Bytes) (le : BitVec 16)
    (s : State) : Host.Outcome State Fault Refusal :=
  s.serve fun s =>
    authenticate Config.units k request
      (enforceBranch k ⟨cla, Config.insAuthenticate, Config.p1Enforce, p2, request, le⟩) s

/-- AUTHENTICATE, P1 = 0x08 (R240, R243). -/
def execU2fAuthenticateSign (k : Tag) (cla p2 : Byte) (request : Bytes) (le : BitVec 16)
    (s : State) : Host.Outcome State Fault Refusal :=
  s.serve fun s =>
    authenticate Config.units k request
      (signAssertion k ⟨cla, Config.insAuthenticate, Config.p1Sign, p2, request, le⟩) s

/-- AUTHENTICATE with any other control byte (R240, R244). -/
def execU2fAuthenticateOtherP1 (k : Tag) (_cla _p1 _p2 : Byte) (request : Bytes)
    (_le : BitVec 16) (s : State) : Host.Outcome State Fault Refusal :=
  s.serve fun s => authenticate Config.units k request (otherP1Branch k) s

/-- The approval of R242 has come. -/
def authenticationAnswered (k : Tag) (d : Apdu) (c : Challenge) (kh : KeyHandle) (ok : Bool)
    (s : State) : State :=
  if ok then signAssertion k d c kh s else s.respondError k .conditionsNotSatisfied

/-- SIGN_ASSERTION (R245) from the counter's answer on. -/
def assertionWithCounter (U : Units) (k : Tag) (c : Challenge) (kh : KeyHandle)
    (ctr : BitVec 32) (s : State) : State :=
  match U.privDec kh.privateKey with
  | none => s.raiseFatal .cryptoInvalidKey
  | some priv =>
    match U.sign priv (assertionMessage c ctr) (Config.draw s.draws) with
    | none => s.drawn.raiseFatal .cryptoInvalidKey
    | some sig => s.drawn.respond k (assertionResponse ctr sig)

/-- U2F(k), suspended in a port-C call, takes the answer of that call. An answer of another kind is no
answer to it: `none`. -/
def resumeU2f (U : Units) (k : Tag) (d : Apdu) (w : U2fWait) (a : Answer) :
    Option (State → State) :=
  match w, a with
  | .newKey c, .keyPair okp => some (registerWithKey U k d c okp)
  | .approveRegistration c kp _ handle, .registrationApproved ok =>
      some (registerApproved k d c kp handle ok)
  | .createCertificate c kp handle, .certificate oc =>
      some (registerWithCertificate U k c kp handle oc)
  | .approveAuthentication c kh, .authenticationApproved ok =>
      some (authenticationAnswered k d c kh ok)
  | .nextCounter c kh, .counter ctr => some (assertionWithCounter U k c kh ctr)
  | _, _ => none

end Sys2Proof.Machine
end

