-- ==== Sys2Proof/Machine/Agents.lean ====
section
/-! DEFINITION. How an answer on port H or port C reaches the agent that waits for it
(60_exceptions.md R275), and how a call arrives (00_scope.md R6). -/

namespace Sys2Proof.Machine

/-- The agent that waits for call `t`. -/
def State.waitingFor (s : State) (t : Tag) : Option Agent :=
  (s.agents.find? fun w => w.call = t).map Suspended.agent

/-- What an agent does with an answer of the kind it waits for; `none` for another kind (log 18). -/
def Agent.resume (U : Units) (g : Agent) (a : Answer) : Option (State → State) :=
  match g, a with
  | .intake x, .handled => some fun s => s.intakeReturned x
  | .cancelling k id, .removed b => some fun s => s.cancelAnswered k id b
  | .u2f k d w, a => resumeU2f U k d w a
  | _, _ => none

/-- An answer for a suspended INTAKE, cancel or U2F agent; one that none of them waits for is discarded
(of another kind: log 18). -/
def State.resumeAgent (U : Units) (s : State) (t : Tag) (a : Answer) : State :=
  match s.waitingFor t with
  | none => s.discard t a
  | some g =>
    match g.resume U a with
    | none => s.discard t a
    | some run => run (s.takeAnswer t a)

/-- The answer to call `t` arrives (R275). While FATAL holds it is discarded (R273); so is an answer
nobody waits for: the delivery was cancelled (R190) or RESET abandoned the agent (R301). A discarded
answer is in the trace like any other (10_state.md R34). -/
def State.resume (U : Units) (s : State) (t : Tag) (a : Answer) : State :=
  match s.fatal with
  | some _ => s.discard t a
  | none =>
    match s.dlvq, a with
    | ⟨x, .waiting t'⟩ :: rest, .response r =>
      if t' = t then s.deliverAnswer t x rest r else s.resumeAgent U t a
    | _, _ => s.resumeAgent U t a

/-! ### Arrival of a call -/

/-- The call as it arrives at this state: its buffer at the next free place, its number the next one
(log 2, log 5). -/
def State.arriving (s : State) (c : Call) : PortCall := c.arrived s.fresh s.bufTop

/-- The bytes the transport hands over with the call. -/
def Call.bytes (c : Call) : Bytes :=
  match c with
  | .handleMessage _ _ _ buf => buf
  | .removeWaitingRequest _ => []
  | .busId => []
  | .deviceSummary => []
  | .apdu _ => []

/-- The call has arrived: the transport's bytes stand in its buffer and the event is recorded
(10_state.md R34). Nothing of the block has happened yet. -/
def State.accept (s : State) (c : Call) : State :=
  { s with
    mem := s.mem.writeBytes s.bufTop (Call.bytes c)
    bufTop := s.bufTop + (Call.bytes c).length
    fresh := s.fresh + 1
    trace := s.trace ++ [.call (s.arriving c)] }

end Sys2Proof.Machine
end

