-- ==== Sys2Proof/Machine/Dispatch.lean ====
section
/-! DEFINITION. The dispatch of an instruction to its meaning, one arm per row of the opcode table. -/

namespace Sys2Proof.Machine

def exec (i : Instr) (s : State) : Host.Outcome State Fault Refusal :=
  match i with
  | .getDescriptorDevice x a d => Sys2Proof.Machine.execGetDescriptorDevice x a d s
  | .getDescriptorConfiguration x a d => Sys2Proof.Machine.execGetDescriptorConfiguration x a d s
  | .getDescriptorString x a d => Sys2Proof.Machine.execGetDescriptorString x a d s
  | .fatalDeviceGetDescriptorType x a t d => Sys2Proof.Machine.execFatalDeviceGetDescriptorType x a t d s
  | .setConfiguration x a v => Sys2Proof.Machine.execSetConfiguration x a v s
  | .getStatus x a v => Sys2Proof.Machine.execGetStatus x a v s
  | .fatalDeviceUnknownRequest x a r v => Sys2Proof.Machine.execFatalDeviceUnknownRequest x a r v s
  | .setIdle x a v => Sys2Proof.Machine.execSetIdle x a v s
  | .setProtocol x a v => Sys2Proof.Machine.execSetProtocol x a v s
  | .getDescriptorHidReport x a d => Sys2Proof.Machine.execGetDescriptorHidReport x a d s
  | .fatalInterfaceGetDescriptorType x a t d => Sys2Proof.Machine.execFatalInterfaceGetDescriptorType x a t d s
  | .fatalInterfaceUnknownRequest x a r v => Sys2Proof.Machine.execFatalInterfaceUnknownRequest x a r v s
  | .fatalUnknownRecipient x a rec r v => Sys2Proof.Machine.execFatalUnknownRecipient x a rec r v s
  | .urbControl x b => Sys2Proof.Machine.execUrbControl x b s
  | .urbDeliver x b => Sys2Proof.Machine.execUrbDeliver x b s
  | .urbIntake x b => Sys2Proof.Machine.execUrbIntake x b s
  | .fatalUnknownEndpoint x b e => Sys2Proof.Machine.execFatalUnknownEndpoint x b e s
  | .cancel k id => Sys2Proof.Machine.execCancel k id s
  | .busId k => Sys2Proof.Machine.execBusId k s
  | .deviceSummary k => Sys2Proof.Machine.execDeviceSummary k s
  | .u2fRegister k cla p1 p2 req le => Sys2Proof.Machine.execU2fRegister k cla p1 p2 req le s
  | .u2fAuthenticateCheckOnly k cla p2 req le => Sys2Proof.Machine.execU2fAuthenticateCheckOnly k cla p2 req le s
  | .u2fAuthenticateEnforce k cla p2 req le => Sys2Proof.Machine.execU2fAuthenticateEnforce k cla p2 req le s
  | .u2fAuthenticateSign k cla p2 req le => Sys2Proof.Machine.execU2fAuthenticateSign k cla p2 req le s
  | .u2fAuthenticateOtherP1 k cla p1 p2 req le => Sys2Proof.Machine.execU2fAuthenticateOtherP1 k cla p1 p2 req le s
  | .u2fVersion k cla p1 p2 req le => Sys2Proof.Machine.execU2fVersion k cla p1 p2 req le s
  | .fatalUnknownIns k cla ins p1 p2 req le => Sys2Proof.Machine.execFatalUnknownIns k cla ins p1 p2 req le s

end Sys2Proof.Machine
end

