-- ==== Sys2Proof/Machine/Step.lean ====
section
/-! DEFINITION. One step: the next input of the schedule is consumed. A call is decoded and its
instruction run; an answer resumes the agent that waits for it; the head of `DLVQ` is scheduled; or
RESET happens. -/

namespace Sys2Proof.Machine

/-- The next input happens. -/
def stepInput (i : Input) (s : State) : Host.Outcome State Fault Refusal :=
  match i with
  | .call c =>
    match decode (s.arriving c) with
    | .ok instr => exec instr (s.accept c)
    | .error e => rejectApdu s.fresh e (s.accept c)
  | .acquire => .next s.acquire
  | .answer t a => .next (s.resume Config.units t a)
  | .reset key => .next (s.doReset key)

/-- One step of the machine. -/
def step (s : State) : Host.Outcome State Fault Refusal :=
  match s.inputs with
  | [] => s.idle
  | i :: rest => stepInput i { s with inputs := rest }

/-- The state with the call that a word of the opcode table stands for as its next input (log 15). -/
def State.withFetchWord (s : State) (nbits w : Nat) : State :=
  { s with inputs := .call (tableCall nbits w) :: s.inputs }

end Sys2Proof.Machine
end

