-- ==== Sys2Proof/WellFormed.lean ====
section
/-! DEFINITION. Which instruction terms stand for an encoding: the fields a row excludes because a
row of higher priority takes them (30_encoding.md R106, R111, R112, R120), and the 16-bit request
length (R110). -/

namespace Sys2Proof

/-- The request fits the 16-bit length field `Lc` (R110). -/
def requestFits (request : Bytes) : Bool := request.length ≤ 65535

/-- The term is what some port call decodes to, on a machine with the codes `q` (00_scope.md R8), which
R106 has distinct. -/
def WellFormed (q : RequestCodes) (i : Instr) : Bool :=
  match i with
  | .getDescriptorDevice _ _ _ => true
  | .getDescriptorConfiguration _ _ _ => true
  | .getDescriptorString _ _ _ => true
  | .fatalDeviceGetDescriptorType _ _ t _ =>
      t ≠ Config.descDevice ∧ t ≠ Config.descConfiguration ∧ t ≠ Config.descString
  | .setConfiguration _ _ _ => true
  | .getStatus _ _ _ => true
  | .fatalDeviceUnknownRequest _ _ r _ =>
      r ≠ q.reqGetDescriptor ∧ r ≠ q.reqSetConfiguration ∧ r ≠ q.reqGetStatus
  | .setIdle _ _ _ => true
  | .setProtocol _ _ _ => true
  | .getDescriptorHidReport _ _ _ => true
  | .fatalInterfaceGetDescriptorType _ _ t _ => t ≠ Config.descHidReport
  | .fatalInterfaceUnknownRequest _ _ r _ =>
      r ≠ q.reqSetIdle ∧ r ≠ q.reqSetProtocol ∧ r ≠ q.reqGetDescriptor
  | .fatalUnknownRecipient _ _ rec _ _ => rec ≠ q.recDevice ∧ rec ≠ q.recInterface
  | .urbControl _ _ => true
  | .urbDeliver _ _ => true
  | .urbIntake _ _ => true
  | .fatalUnknownEndpoint _ _ e => e ≠ Config.epCtrl ∧ e ≠ Config.epIn ∧ e ≠ Config.epOut
  | .cancel _ _ => true
  | .busId _ => true
  | .deviceSummary _ => true
  | .u2fRegister _ _ _ _ req _ => requestFits req
  | .u2fAuthenticateCheckOnly _ _ _ req _ => requestFits req
  | .u2fAuthenticateEnforce _ _ _ req _ => requestFits req
  | .u2fAuthenticateSign _ _ _ req _ => requestFits req
  | .u2fAuthenticateOtherP1 _ _ p1 _ req _ =>
      requestFits req ∧ p1 ≠ Config.p1CheckOnly ∧ p1 ≠ Config.p1Enforce ∧ p1 ≠ Config.p1Sign
  | .u2fVersion _ _ _ _ req _ => requestFits req
  | .fatalUnknownIns _ _ ins _ _ req _ =>
      requestFits req ∧ ins ≠ Config.insVersion ∧ ins ≠ Config.insRegister ∧
        ins ≠ Config.insAuthenticate

end Sys2Proof
end

