-- ==== Sys2Proof/Safety.lean ====
section
/-! DEFINITION. What counts as a safe run, in the terms claims use: the launch premise and the end of a
run (70_reset_and_hazards.md R314, R315), the named premises about units, client and delegate, what a
copy into a transfer buffer does, and the invariant of the machine. -/

namespace Sys2Proof

/-! ### Laws of the functional units (44_u2f_commands.md R231 to R233) -/

/-- R231 (`PRIVDEC(PRIVENC(kp)) = some priv(kp)`), R232 law 1 (round trip), and the corner case of R240
that OPEN fails on the empty string (the spec's own general knowledge, G15; PRESUMED, log 23). -/
structure Units.Lawful (U : Units) : Prop where
  privDec_privEnc : ∀ kp, U.privDec (U.privEnc kp) = some (U.priv kp)
  openBox_sealBox : ∀ sk kh n b, kh.privateKey.length ≤ 200 → kh.applicationId.length = 32 →
    U.sealBox sk kh n = some b → U.openBox sk b = some kh
  openBox_empty : ∀ sk, U.openBox sk [] = none

/-- R232 law 2 (integrity): only a sealed handle opens. -/
def Units.Integrity (U : Units) : Prop :=
  ∀ sk b kh, U.openBox sk b = some kh → ∃ n, U.sealBox sk kh n = some b

/-- R233: what `SIGN` makes verifies, for a given predicate `VERIFY(pk, msg, sig)`. -/
def SignLaw (U : Units) (verify : Bytes → Bytes → Bytes → Prop) : Prop :=
  ∀ kp msg r sig, U.sign (U.priv kp) msg r = some sig → verify (Machine.publicKey U kp) msg sig

/-- `CONFORMANT_SEAL` (70_reset_and_hazards.md R315): every sealed handle fits its length byte. -/
def ConformantSeal (U : Units) : Prop :=
  ∀ sk kh n b, U.sealBox sk kh n = some b → b.length ≤ Config.maxHandleLen

/-! ### Instructions -/

/-- The transfer an EP0 instruction replies to: the only buffer an instruction's own step may write. -/
def Instr.replyTo (i : Instr) : Option Xfer :=
  match i with
  | .getDescriptorDevice x _ _ => some x
  | .getDescriptorConfiguration x _ _ => some x
  | .getDescriptorString x _ _ => some x
  | .fatalDeviceGetDescriptorType x _ _ _ => some x
  | .setConfiguration x _ _ => some x
  | .getStatus x _ _ => some x
  | .fatalDeviceUnknownRequest x _ _ _ => some x
  | .setIdle x _ _ => some x
  | .setProtocol x _ _ => some x
  | .getDescriptorHidReport x _ _ => some x
  | .fatalInterfaceGetDescriptorType x _ _ _ => some x
  | .fatalInterfaceUnknownRequest x _ _ _ => some x
  | .fatalUnknownRecipient x _ _ _ _ => some x
  | .urbControl x _ => some x
  | .urbDeliver _ _ => none
  | .urbIntake _ _ => none
  | .fatalUnknownEndpoint _ _ _ => none
  | .cancel _ _ => none
  | .busId _ => none
  | .deviceSummary _ => none
  | .u2fRegister _ _ _ _ _ _ => none
  | .u2fAuthenticateCheckOnly _ _ _ _ _ => none
  | .u2fAuthenticateEnforce _ _ _ _ _ => none
  | .u2fAuthenticateSign _ _ _ _ _ => none
  | .u2fAuthenticateOtherP1 _ _ _ _ _ _ => none
  | .u2fVersion _ _ _ _ _ _ => none
  | .fatalUnknownIns _ _ _ _ _ _ _ => none

namespace Machine

/-! ### Premises about the outside -/

/-- Real time, as the block sees it: one `next_counter_id` call had been answered `c` before the block
made the call that answered `d`. An answer that the block discards counts, since the client gave it
(44_u2f_commands.md R235 is about the values returned). Of two calls that overlap neither comes before
the other (20_memory.md R74). -/
def CounterPrecedes (events : List Event) (c d : BitVec 32) : Prop :=
  ∃ (t u : Tag) (h i j k : Nat), h < i ∧ i < j ∧ j < k ∧
    events[h]? = some (.callC t .nextCounterId) ∧
    events[i]? = some (.answered t (.counter c)) ∧
    events[j]? = some (.callC u .nextCounterId) ∧
    events[k]? = some (.answered u (.counter d))

/-- The client's counter law (44_u2f_commands.md R235): non-decreasing in linearization order. R74 asks an
order consistent with real time and fixes none among overlapping calls. Some such order has
non-decreasing values exactly when no call answers less than one that returned before it was made, and
that is what this says: the order of overlapping calls stays open. DEDUCED, log 24. -/
def CounterNonDecreasing (s : State) : Prop :=
  ∀ c d, CounterPrecedes s.trace c d → c.toNat ≤ d.toNat

/-- `STRICT_COUNTER` (R235): "two sequential AUTHENTICATE-sign calls yield strictly increasing counter
values"; nothing is said of overlapping calls (R74). DEDUCED, log 24. -/
def StrictCounter (s : State) : Prop :=
  ∀ c d, CounterPrecedes s.trace c d → c.toNat < d.toNat

/-- The state after `n` steps, or `none` if one of them is a fault. -/
def State.run : Nat → State → Option State
  | 0, s => some s
  | n + 1, s =>
    match step s with
    | .next t => State.run n t
    | .fault _ => none
    | .refused _ => none

/-- `a` is of the kind that the agent's outstanding call answers (10_state.md R23;
44_u2f_commands.md R234). -/
def Agent.takes (g : Agent) (a : Answer) : Bool :=
  match g, a with
  | .intake _, .handled => true
  | .cancelling _ _, .removed _ => true
  | .u2f _ _ (.newKey _), .keyPair _ => true
  | .u2f _ _ (.approveRegistration _ _ _ _), .registrationApproved _ => true
  | .u2f _ _ (.createCertificate _ _ _), .certificate _ => true
  | .u2f _ _ (.approveAuthentication _ _), .authenticationApproved _ => true
  | .u2f _ _ (.nextCounter _ _), .counter _ => true
  | _, _ => false

/-- The schedule still holds an answer of the right kind to the call that agent `w` waits for. -/
def State.willAnswer (s : State) (w : Suspended) : Prop :=
  ∃ a, w.agent.takes a = true ∧ Input.answer w.call a ∈ s.inputs

/-- `FAIR_H` (70_reset_and_hazards.md R311): along the whole run, every `H.get_response` call is
answered with some response or with a timeout, and every `H.handle_message` and
`H.remove_waiting_request` call returns. A call is outstanding in the state right after the step that
makes it, and no call is made in a fatal state, so quantifying over the running states of the run covers
every call it makes. A fatal block discards H's answer and keeps the entry until RESET
(60_exceptions.md R273, 70_reset_and_hazards.md R301): H has answered, and no second answer is asked. -/
def FairH (s : State) : Prop :=
  ∀ n t, s.run n = some t → t.fatal = none →
    (∀ e ∈ t.dlvq, ∀ c, e.phase = .waiting c → ∃ r, Input.answer c (.response r) ∈ t.inputs) ∧
      ∀ w ∈ t.agents, w.isU2f = false → t.willAnswer w

/-- `FAIR_C` (R311): along the whole run, every port-C call returns, the approvals too. -/
def FairC (s : State) : Prop :=
  ∀ n t, s.run n = some t → ∀ w ∈ t.agents, w.isU2f = true → t.willAnswer w

/-! ### Launch and end -/

/-- The client's sealing key: what `C.sealing_key()` answered at the last RESET (10_state.md R31). -/
def clientKey (trace : List Event) : Option Bytes :=
  trace.foldl (fun key e => match e with
    | .reset k => some k
    | _ => key) none

/-- `CLEAN_START` (70_reset_and_hazards.md R315). -/
structure CleanStart (s : State) : Prop where
  fatal : s.fatal = none
  dlvq : s.dlvq = []
  agents : s.agents = []
  latch : s.setup = none
  key : clientKey s.trace = some s.sk
  keyLength : 32 ≤ s.sk.length

/-- The client's side of SK (10_state.md R31; 70_reset_and_hazards.md R303): every RESET of the run gets
the same bytes, "stable for the device's lifetime". -/
def StableKey (s : State) : Prop :=
  (∀ key, Event.reset key ∈ s.trace → key = s.sk) ∧ ∀ key, Input.reset key ∈ s.inputs → key = s.sk

/-- The events since the last RESET: what came before it, RESET has dropped (R301; log 26). -/
def sinceReset (trace : List Event) : List Event :=
  trace.foldl (fun acc e => match e with
    | .reset _ => []
    | e => acc ++ [e]) []

/-- A call that must have ended: an EP0 or EP2 URB with its FINISH, a port-A call with its response
(R314 points 3 and 4). A FINISH is that of its URB by id and buffer, so a reused id does not confuse two
URBs (log 22). -/
def callEnded (events : List Event) (c : PortCall) : Bool :=
  match c with
  | .handleMessage x endpoint _ =>
    if endpoint = Config.epCtrl ∨ endpoint = Config.epOut then
      events.any fun e => match e with
        | .finish y _ _ => y = x
        | _ => false
    else true
  | .apdu k _ =>
    events.any fun e => match e with
      | .respond k' _ => k' = k
      | _ => false
  | .removeWaitingRequest _ _ => true
  | .busId _ => true
  | .deviceSummary _ => true

/-- A run is at its end (R314): not fatal, no delivery pending, no agent suspended, every URB of EP0
and EP2 finished and every port-A call answered.
R314 point 3 says both "no agent is suspended" and "no port-H or port-C call is outstanding". The two come
apart when the block has abandoned a call: a true cancellation takes the WAITING entry away while H still
owes its answer, which will be discarded (42_endpoint_transfers.md R189, R190), and RESET abandons every
agent (R301). The model counts agents: a run with no agent and no delivery is at its end though the
delegate or the client has not answered an abandoned call. DESIGN CHOICE, unsafe: log 26. -/
def State.atEnd (s : State) : Bool :=
  s.fatal = none && s.dlvq.isEmpty && s.agents.isEmpty &&
    (sinceReset s.trace).all fun e => match e with
      | .call c => callEnded (sinceReset s.trace) c
      | _ => true

/-! ### Control requests -/

/-- What a control request comes to, read from 41_control_requests.md R150 to R166 in the check order
of 60_exceptions.md R276: the data of its reply, or the reason of its fatal error. `d` are the open
parameters (00_scope.md R8). -/
def controlOutcome (d : OpenParams) (p : Setup) : Except FatalReason Bytes :=
  let q := d.codes
  if p.recipient ∉ [q.recDevice, q.recInterface] then .error .unknownRecipient
  else if p.recipient = q.recDevice then
    if p.bRequest ∉ [q.reqGetDescriptor, q.reqSetConfiguration, q.reqGetStatus] then
      .error .unknownRequest
    else if p.bRequest = q.reqGetDescriptor then
      if p.descType = Config.descDevice then .ok Rom.device
      else if p.descType = Config.descConfiguration then .ok (Rom.configurationBlock d.descriptors)
      else if p.descType ≠ Config.descString then .error .invalidDescriptorType
      else if 5 < p.descIndex.toNat then .error .invalidStringIndex
      else .ok (Rom.string p.descIndex.toNat)
    else if p.bRequest = q.reqSetConfiguration then .ok []
    else .ok [0x01]
  else if p.bRequest ∉ [q.reqSetIdle, q.reqSetProtocol, q.reqGetDescriptor] then
    .error .unknownRequest
  else if p.bRequest = q.reqSetIdle ∨ p.bRequest = q.reqSetProtocol then .ok []
  else if p.descType = Config.descHidReport then .ok Rom.reportMap
  else .error .invalidDescriptorType

/-! ### Copies into transfer buffers (20_memory.md R67) -/

/-- The number of bytes a copy of `data` into buffer `b` writes. -/
def copyLen (b : BufRef) (data : Bytes) : Nat := min data.length b.len

/-- Memory `m'` is `m` with the first `copyLen b data` bytes of `data` at the start of buffer `b`, and
no other byte changed. -/
def Copied (m m' : Memory) (b : BufRef) (data : Bytes) : Prop :=
  (∀ i, i < copyLen b data → m'.read (b.base + i) = data.getD i 0) ∧
    ∀ a, a < b.base ∨ b.base + copyLen b data ≤ a → m'.read a = m.read a

/-- State `t` is state `s` after `reply(data)` on the URB `x` (42_endpoint_transfers.md R182): the
prefix copied, FINISH recorded with the written length, and nothing else changed. -/
structure Replied (s t : State) (x : Xfer) (data : Bytes) : Prop where
  memory : Copied s.mem t.mem x.buf data
  event : t.trace = s.trace ++ [.finish x (copyLen x.buf data) (t.bufBytes x.buf)]
  fatal : t.fatal = s.fatal
  dlvq : t.dlvq = s.dlvq
  sk : t.sk = s.sk
  latch : t.setup = none
  agents : t.agents = s.agents
  bufTop : t.bufTop = s.bufTop
  fresh : t.fresh = s.fresh
  draws : t.draws = s.draws
  inputs : t.inputs = s.inputs
  params : t.params = s.params

/-! ### The invariant -/

/-- Only the head of `DLVQ` may be WAITING (10_state.md R27). -/
def QueueOk (s : State) : Prop := ∀ e ∈ s.dlvq.tail, e.phase = .queued

/-- The buffers of the pending deliveries lie below the next free place and apart from each other: each
URB has its own space `BUF(id)` (20_memory.md R50). -/
def BuffersOk (s : State) : Prop :=
  (∀ e ∈ s.dlvq, e.xfer.buf.base + e.xfer.buf.len ≤ s.bufTop) ∧
    s.dlvq.Pairwise fun d e => d.xfer.buf.base + d.xfer.buf.len ≤ e.xfer.buf.base

/-- The calls the block waits for: no two agents wait for the same call, and each call has been
made. -/
def CallsOk (s : State) : Prop :=
  (s.agents.map Suspended.call).Nodup ∧ (∀ w ∈ s.agents, w.call < s.fresh) ∧
    ∀ e ∈ s.dlvq, ∀ t, e.phase = .waiting t → t < s.fresh ∧ t ∉ s.agents.map Suspended.call

/-- The invariant every step keeps: canonical buffer memory, no SETUP latch live between steps
(10_state.md R24), one delivery in the lock at most (R27), disjoint buffers, distinct calls. -/
structure Inv (s : State) : Prop where
  memory : s.mem.wf
  latch : s.setup = none
  queue : QueueOk s
  buffers : BuffersOk s
  calls : CallsOk s

/-- Every handle a suspended REGISTER carries is a sealing of its own key and application
(44_u2f_commands.md R237 steps 4 and 5). -/
def HandlesSealed (U : Units) (s : State) : Prop :=
  ∀ w ∈ s.agents,
    match w.agent with
    | .u2f _ _ (.approveRegistration c kp kh handle) =>
        kh = keyHandleFor U kp c ∧ ∃ sk n, U.sealBox sk kh n = some handle
    | .u2f _ _ (.createCertificate c kp handle) =>
        ∃ sk n, U.sealBox sk (keyHandleFor U kp c) n = some handle
    | _ => True

/-! ### Observations -/

/-- A FINISH event. -/
def Event.isFinish (e : Event) : Bool :=
  match e with
  | .finish _ _ _ => true
  | _ => false

/-- A response ends in one of the four status words the block emits (30_encoding.md R118). -/
def EndsInStatusWord (bytes : Bytes) : Prop :=
  ∃ data w, w ∈ [StatusWord.noError, .conditionsNotSatisfied, .wrongData, .wrongLength] ∧
    bytes = response data w

end Machine

end Sys2Proof
end

