-- ==== Sys2Proof/Laws/State.lean ====
section
/-! SUPPORT. The state updates, field by field: one lemma per field an operation of Machine/Ops.lean
leaves alone or sets, so that no proof unfolds a record update. -/

namespace Sys2Proof.Machine

section
variable (s : State)

/-! ### `emit` -/

@[simp] theorem State.emit_fatal (e : Event) : (s.emit e).fatal = s.fatal := rfl
@[simp] theorem State.emit_dlvq (e : Event) : (s.emit e).dlvq = s.dlvq := rfl
@[simp] theorem State.emit_sk (e : Event) : (s.emit e).sk = s.sk := rfl
@[simp] theorem State.emit_setup (e : Event) : (s.emit e).setup = s.setup := rfl
@[simp] theorem State.emit_agents (e : Event) : (s.emit e).agents = s.agents := rfl
@[simp] theorem State.emit_mem (e : Event) : (s.emit e).mem = s.mem := rfl
@[simp] theorem State.emit_bufTop (e : Event) : (s.emit e).bufTop = s.bufTop := rfl
@[simp] theorem State.emit_fresh (e : Event) : (s.emit e).fresh = s.fresh := rfl
@[simp] theorem State.emit_draws (e : Event) : (s.emit e).draws = s.draws := rfl
@[simp] theorem State.emit_trace (e : Event) : (s.emit e).trace = s.trace ++ [e] := rfl
@[simp] theorem State.emit_inputs (e : Event) : (s.emit e).inputs = s.inputs := rfl
@[simp] theorem State.emit_params (e : Event) : (s.emit e).params = s.params := rfl

/-! ### `writeBuf` -/

@[simp] theorem State.writeBuf_fatal (b : BufRef) (data : Bytes) :
    (s.writeBuf b data).fatal = s.fatal := rfl
@[simp] theorem State.writeBuf_dlvq (b : BufRef) (data : Bytes) :
    (s.writeBuf b data).dlvq = s.dlvq := rfl
@[simp] theorem State.writeBuf_sk (b : BufRef) (data : Bytes) : (s.writeBuf b data).sk = s.sk := rfl
@[simp] theorem State.writeBuf_setup (b : BufRef) (data : Bytes) :
    (s.writeBuf b data).setup = s.setup := rfl
@[simp] theorem State.writeBuf_agents (b : BufRef) (data : Bytes) :
    (s.writeBuf b data).agents = s.agents := rfl
@[simp] theorem State.writeBuf_mem (b : BufRef) (data : Bytes) :
    (s.writeBuf b data).mem = s.mem.writeBytes b.base (data.take b.len) := rfl
@[simp] theorem State.writeBuf_bufTop (b : BufRef) (data : Bytes) :
    (s.writeBuf b data).bufTop = s.bufTop := rfl
@[simp] theorem State.writeBuf_fresh (b : BufRef) (data : Bytes) :
    (s.writeBuf b data).fresh = s.fresh := rfl
@[simp] theorem State.writeBuf_draws (b : BufRef) (data : Bytes) :
    (s.writeBuf b data).draws = s.draws := rfl
@[simp] theorem State.writeBuf_trace (b : BufRef) (data : Bytes) :
    (s.writeBuf b data).trace = s.trace := rfl
@[simp] theorem State.writeBuf_inputs (b : BufRef) (data : Bytes) :
    (s.writeBuf b data).inputs = s.inputs := rfl
@[simp] theorem State.writeBuf_params (b : BufRef) (data : Bytes) :
    (s.writeBuf b data).params = s.params := rfl

/-! ### `finish` -/

@[simp] theorem State.finish_fatal (x : Xfer) (n : Nat) : (s.finish x n).fatal = s.fatal := rfl
@[simp] theorem State.finish_dlvq (x : Xfer) (n : Nat) : (s.finish x n).dlvq = s.dlvq := rfl
@[simp] theorem State.finish_sk (x : Xfer) (n : Nat) : (s.finish x n).sk = s.sk := rfl
@[simp] theorem State.finish_setup (x : Xfer) (n : Nat) : (s.finish x n).setup = s.setup := rfl
@[simp] theorem State.finish_agents (x : Xfer) (n : Nat) : (s.finish x n).agents = s.agents := rfl
@[simp] theorem State.finish_mem (x : Xfer) (n : Nat) : (s.finish x n).mem = s.mem := rfl
@[simp] theorem State.finish_bufTop (x : Xfer) (n : Nat) : (s.finish x n).bufTop = s.bufTop := rfl
@[simp] theorem State.finish_fresh (x : Xfer) (n : Nat) : (s.finish x n).fresh = s.fresh := rfl
@[simp] theorem State.finish_draws (x : Xfer) (n : Nat) : (s.finish x n).draws = s.draws := rfl
@[simp] theorem State.finish_trace (x : Xfer) (n : Nat) :
    (s.finish x n).trace = s.trace ++ [.finish x n (s.bufBytes x.buf)] := rfl
@[simp] theorem State.finish_inputs (x : Xfer) (n : Nat) : (s.finish x n).inputs = s.inputs := rfl
@[simp] theorem State.finish_params (x : Xfer) (n : Nat) : (s.finish x n).params = s.params := rfl

/-! ### `copyOut` -/

@[simp] theorem State.copyOut_fatal (x : Xfer) (data : Bytes) :
    (s.copyOut x data).fatal = s.fatal := rfl
@[simp] theorem State.copyOut_dlvq (x : Xfer) (data : Bytes) :
    (s.copyOut x data).dlvq = s.dlvq := rfl
@[simp] theorem State.copyOut_sk (x : Xfer) (data : Bytes) : (s.copyOut x data).sk = s.sk := rfl
@[simp] theorem State.copyOut_setup (x : Xfer) (data : Bytes) :
    (s.copyOut x data).setup = s.setup := rfl
@[simp] theorem State.copyOut_agents (x : Xfer) (data : Bytes) :
    (s.copyOut x data).agents = s.agents := rfl
@[simp] theorem State.copyOut_mem (x : Xfer) (data : Bytes) :
    (s.copyOut x data).mem = s.mem.writeBytes x.buf.base (data.take x.buf.len) := rfl
@[simp] theorem State.copyOut_bufTop (x : Xfer) (data : Bytes) :
    (s.copyOut x data).bufTop = s.bufTop := rfl
@[simp] theorem State.copyOut_fresh (x : Xfer) (data : Bytes) :
    (s.copyOut x data).fresh = s.fresh := rfl
@[simp] theorem State.copyOut_draws (x : Xfer) (data : Bytes) :
    (s.copyOut x data).draws = s.draws := rfl
@[simp] theorem State.copyOut_trace (x : Xfer) (data : Bytes) :
    (s.copyOut x data).trace = s.trace ++
      [.finish x (min data.length x.buf.len)
        ((s.mem.writeBytes x.buf.base (data.take x.buf.len)).readBytes x.buf.base x.buf.len)] := rfl
@[simp] theorem State.copyOut_inputs (x : Xfer) (data : Bytes) :
    (s.copyOut x data).inputs = s.inputs := rfl
@[simp] theorem State.copyOut_params (x : Xfer) (data : Bytes) :
    (s.copyOut x data).params = s.params := rfl

/-! ### `latchSetup` -/

@[simp] theorem State.latchSetup_fatal (p : Setup) : (s.latchSetup p).fatal = s.fatal := rfl
@[simp] theorem State.latchSetup_dlvq (p : Setup) : (s.latchSetup p).dlvq = s.dlvq := rfl
@[simp] theorem State.latchSetup_sk (p : Setup) : (s.latchSetup p).sk = s.sk := rfl
@[simp] theorem State.latchSetup_setup (p : Setup) : (s.latchSetup p).setup = some p := rfl
@[simp] theorem State.latchSetup_agents (p : Setup) : (s.latchSetup p).agents = s.agents := rfl
@[simp] theorem State.latchSetup_mem (p : Setup) : (s.latchSetup p).mem = s.mem := rfl
@[simp] theorem State.latchSetup_bufTop (p : Setup) : (s.latchSetup p).bufTop = s.bufTop := rfl
@[simp] theorem State.latchSetup_fresh (p : Setup) : (s.latchSetup p).fresh = s.fresh := rfl
@[simp] theorem State.latchSetup_draws (p : Setup) : (s.latchSetup p).draws = s.draws := rfl
@[simp] theorem State.latchSetup_trace (p : Setup) : (s.latchSetup p).trace = s.trace := rfl
@[simp] theorem State.latchSetup_inputs (p : Setup) : (s.latchSetup p).inputs = s.inputs := rfl
@[simp] theorem State.latchSetup_params (p : Setup) : (s.latchSetup p).params = s.params := rfl

/-! ### `reply` -/

@[simp] theorem State.reply_fatal (x : Xfer) (data : Bytes) :
    (s.reply x data).fatal = s.fatal := rfl
@[simp] theorem State.reply_dlvq (x : Xfer) (data : Bytes) : (s.reply x data).dlvq = s.dlvq := rfl
@[simp] theorem State.reply_sk (x : Xfer) (data : Bytes) : (s.reply x data).sk = s.sk := rfl
@[simp] theorem State.reply_setup (x : Xfer) (data : Bytes) : (s.reply x data).setup = none := rfl
@[simp] theorem State.reply_agents (x : Xfer) (data : Bytes) :
    (s.reply x data).agents = s.agents := rfl
@[simp] theorem State.reply_mem (x : Xfer) (data : Bytes) :
    (s.reply x data).mem = s.mem.writeBytes x.buf.base (data.take x.buf.len) := rfl
@[simp] theorem State.reply_bufTop (x : Xfer) (data : Bytes) :
    (s.reply x data).bufTop = s.bufTop := rfl
@[simp] theorem State.reply_fresh (x : Xfer) (data : Bytes) :
    (s.reply x data).fresh = s.fresh := rfl
@[simp] theorem State.reply_draws (x : Xfer) (data : Bytes) :
    (s.reply x data).draws = s.draws := rfl
@[simp] theorem State.reply_trace (x : Xfer) (data : Bytes) :
    (s.reply x data).trace = (s.copyOut x data).trace := rfl
@[simp] theorem State.reply_inputs (x : Xfer) (data : Bytes) :
    (s.reply x data).inputs = s.inputs := rfl
@[simp] theorem State.reply_params (x : Xfer) (data : Bytes) :
    (s.reply x data).params = s.params := rfl

/-! ### `respond` -/

@[simp] theorem State.respond_fatal (k : Tag) (b : Bytes) : (s.respond k b).fatal = s.fatal := rfl
@[simp] theorem State.respond_dlvq (k : Tag) (b : Bytes) : (s.respond k b).dlvq = s.dlvq := rfl
@[simp] theorem State.respond_sk (k : Tag) (b : Bytes) : (s.respond k b).sk = s.sk := rfl
@[simp] theorem State.respond_setup (k : Tag) (b : Bytes) : (s.respond k b).setup = s.setup := rfl
@[simp] theorem State.respond_agents (k : Tag) (b : Bytes) :
    (s.respond k b).agents = s.agents := rfl
@[simp] theorem State.respond_mem (k : Tag) (b : Bytes) : (s.respond k b).mem = s.mem := rfl
@[simp] theorem State.respond_bufTop (k : Tag) (b : Bytes) :
    (s.respond k b).bufTop = s.bufTop := rfl
@[simp] theorem State.respond_fresh (k : Tag) (b : Bytes) : (s.respond k b).fresh = s.fresh := rfl
@[simp] theorem State.respond_draws (k : Tag) (b : Bytes) : (s.respond k b).draws = s.draws := rfl
@[simp] theorem State.respond_trace (k : Tag) (b : Bytes) :
    (s.respond k b).trace = s.trace ++ [.respond k b] := rfl
@[simp] theorem State.respond_inputs (k : Tag) (b : Bytes) :
    (s.respond k b).inputs = s.inputs := rfl
@[simp] theorem State.respond_params (k : Tag) (b : Bytes) :
    (s.respond k b).params = s.params := rfl

/-! ### `returnT` -/

@[simp] theorem State.returnT_fatal (k : Tag) (v : Returned) :
    (s.returnT k v).fatal = s.fatal := rfl
@[simp] theorem State.returnT_dlvq (k : Tag) (v : Returned) : (s.returnT k v).dlvq = s.dlvq := rfl
@[simp] theorem State.returnT_sk (k : Tag) (v : Returned) : (s.returnT k v).sk = s.sk := rfl
@[simp] theorem State.returnT_setup (k : Tag) (v : Returned) :
    (s.returnT k v).setup = s.setup := rfl
@[simp] theorem State.returnT_agents (k : Tag) (v : Returned) :
    (s.returnT k v).agents = s.agents := rfl
@[simp] theorem State.returnT_mem (k : Tag) (v : Returned) : (s.returnT k v).mem = s.mem := rfl
@[simp] theorem State.returnT_bufTop (k : Tag) (v : Returned) :
    (s.returnT k v).bufTop = s.bufTop := rfl
@[simp] theorem State.returnT_fresh (k : Tag) (v : Returned) :
    (s.returnT k v).fresh = s.fresh := rfl
@[simp] theorem State.returnT_draws (k : Tag) (v : Returned) :
    (s.returnT k v).draws = s.draws := rfl
@[simp] theorem State.returnT_trace (k : Tag) (v : Returned) :
    (s.returnT k v).trace = s.trace ++ [.returned k v] := rfl
@[simp] theorem State.returnT_inputs (k : Tag) (v : Returned) :
    (s.returnT k v).inputs = s.inputs := rfl
@[simp] theorem State.returnT_params (k : Tag) (v : Returned) :
    (s.returnT k v).params = s.params := rfl

/-! ### `callH` -/

@[simp] theorem State.callH_fatal (g : Agent) (c : HCall) : (s.callH g c).fatal = s.fatal := rfl
@[simp] theorem State.callH_dlvq (g : Agent) (c : HCall) : (s.callH g c).dlvq = s.dlvq := rfl
@[simp] theorem State.callH_sk (g : Agent) (c : HCall) : (s.callH g c).sk = s.sk := rfl
@[simp] theorem State.callH_setup (g : Agent) (c : HCall) : (s.callH g c).setup = s.setup := rfl
@[simp] theorem State.callH_agents (g : Agent) (c : HCall) :
    (s.callH g c).agents = s.agents ++ [⟨s.fresh, g⟩] := rfl
@[simp] theorem State.callH_mem (g : Agent) (c : HCall) : (s.callH g c).mem = s.mem := rfl
@[simp] theorem State.callH_bufTop (g : Agent) (c : HCall) : (s.callH g c).bufTop = s.bufTop := rfl
@[simp] theorem State.callH_fresh (g : Agent) (c : HCall) : (s.callH g c).fresh = s.fresh + 1 := rfl
@[simp] theorem State.callH_draws (g : Agent) (c : HCall) : (s.callH g c).draws = s.draws := rfl
@[simp] theorem State.callH_trace (g : Agent) (c : HCall) :
    (s.callH g c).trace = s.trace ++ [.callH s.fresh c] := rfl
@[simp] theorem State.callH_inputs (g : Agent) (c : HCall) : (s.callH g c).inputs = s.inputs := rfl
@[simp] theorem State.callH_params (g : Agent) (c : HCall) : (s.callH g c).params = s.params := rfl

/-! ### `callC` -/

@[simp] theorem State.callC_fatal (g : Agent) (c : CCall) : (s.callC g c).fatal = s.fatal := rfl
@[simp] theorem State.callC_dlvq (g : Agent) (c : CCall) : (s.callC g c).dlvq = s.dlvq := rfl
@[simp] theorem State.callC_sk (g : Agent) (c : CCall) : (s.callC g c).sk = s.sk := rfl
@[simp] theorem State.callC_setup (g : Agent) (c : CCall) : (s.callC g c).setup = s.setup := rfl
@[simp] theorem State.callC_agents (g : Agent) (c : CCall) :
    (s.callC g c).agents = s.agents ++ [⟨s.fresh, g⟩] := rfl
@[simp] theorem State.callC_mem (g : Agent) (c : CCall) : (s.callC g c).mem = s.mem := rfl
@[simp] theorem State.callC_bufTop (g : Agent) (c : CCall) : (s.callC g c).bufTop = s.bufTop := rfl
@[simp] theorem State.callC_fresh (g : Agent) (c : CCall) : (s.callC g c).fresh = s.fresh + 1 := rfl
@[simp] theorem State.callC_draws (g : Agent) (c : CCall) : (s.callC g c).draws = s.draws := rfl
@[simp] theorem State.callC_trace (g : Agent) (c : CCall) :
    (s.callC g c).trace = s.trace ++ [.callC s.fresh c] := rfl
@[simp] theorem State.callC_inputs (g : Agent) (c : CCall) : (s.callC g c).inputs = s.inputs := rfl
@[simp] theorem State.callC_params (g : Agent) (c : CCall) : (s.callC g c).params = s.params := rfl

/-! ### `takeAnswer` -/

@[simp] theorem State.takeAnswer_fatal (t : Tag) (a : Answer) :
    (s.takeAnswer t a).fatal = s.fatal := rfl
@[simp] theorem State.takeAnswer_dlvq (t : Tag) (a : Answer) :
    (s.takeAnswer t a).dlvq = s.dlvq := rfl
@[simp] theorem State.takeAnswer_sk (t : Tag) (a : Answer) : (s.takeAnswer t a).sk = s.sk := rfl
@[simp] theorem State.takeAnswer_setup (t : Tag) (a : Answer) :
    (s.takeAnswer t a).setup = s.setup := rfl
@[simp] theorem State.takeAnswer_agents (t : Tag) (a : Answer) :
    (s.takeAnswer t a).agents = s.agents.filter (fun w => w.call ≠ t) := rfl
@[simp] theorem State.takeAnswer_mem (t : Tag) (a : Answer) : (s.takeAnswer t a).mem = s.mem := rfl
@[simp] theorem State.takeAnswer_bufTop (t : Tag) (a : Answer) :
    (s.takeAnswer t a).bufTop = s.bufTop := rfl
@[simp] theorem State.takeAnswer_fresh (t : Tag) (a : Answer) :
    (s.takeAnswer t a).fresh = s.fresh := rfl
@[simp] theorem State.takeAnswer_draws (t : Tag) (a : Answer) :
    (s.takeAnswer t a).draws = s.draws := rfl
@[simp] theorem State.takeAnswer_trace (t : Tag) (a : Answer) :
    (s.takeAnswer t a).trace = s.trace ++ [.answered t a] := rfl
@[simp] theorem State.takeAnswer_inputs (t : Tag) (a : Answer) :
    (s.takeAnswer t a).inputs = s.inputs := rfl
@[simp] theorem State.takeAnswer_params (t : Tag) (a : Answer) :
    (s.takeAnswer t a).params = s.params := rfl

/-! ### `discard` -/

@[simp] theorem State.discard_fatal (t : Tag) (a : Answer) : (s.discard t a).fatal = s.fatal := rfl
@[simp] theorem State.discard_dlvq (t : Tag) (a : Answer) : (s.discard t a).dlvq = s.dlvq := rfl
@[simp] theorem State.discard_sk (t : Tag) (a : Answer) : (s.discard t a).sk = s.sk := rfl
@[simp] theorem State.discard_setup (t : Tag) (a : Answer) : (s.discard t a).setup = s.setup := rfl
@[simp] theorem State.discard_agents (t : Tag) (a : Answer) : (s.discard t a).agents = s.agents := rfl
@[simp] theorem State.discard_mem (t : Tag) (a : Answer) : (s.discard t a).mem = s.mem := rfl
@[simp] theorem State.discard_bufTop (t : Tag) (a : Answer) : (s.discard t a).bufTop = s.bufTop := rfl
@[simp] theorem State.discard_fresh (t : Tag) (a : Answer) : (s.discard t a).fresh = s.fresh := rfl
@[simp] theorem State.discard_draws (t : Tag) (a : Answer) : (s.discard t a).draws = s.draws := rfl
@[simp] theorem State.discard_trace (t : Tag) (a : Answer) :
    (s.discard t a).trace = s.trace ++ [.answered t a] := rfl
@[simp] theorem State.discard_inputs (t : Tag) (a : Answer) :
    (s.discard t a).inputs = s.inputs := rfl
@[simp] theorem State.discard_params (t : Tag) (a : Answer) :
    (s.discard t a).params = s.params := rfl

/-! ### `drawn` -/

@[simp] theorem State.drawn_fatal : (s.drawn).fatal = s.fatal := rfl
@[simp] theorem State.drawn_dlvq : (s.drawn).dlvq = s.dlvq := rfl
@[simp] theorem State.drawn_sk : (s.drawn).sk = s.sk := rfl
@[simp] theorem State.drawn_setup : (s.drawn).setup = s.setup := rfl
@[simp] theorem State.drawn_agents : (s.drawn).agents = s.agents := rfl
@[simp] theorem State.drawn_mem : (s.drawn).mem = s.mem := rfl
@[simp] theorem State.drawn_bufTop : (s.drawn).bufTop = s.bufTop := rfl
@[simp] theorem State.drawn_fresh : (s.drawn).fresh = s.fresh := rfl
@[simp] theorem State.drawn_draws : (s.drawn).draws = s.draws + 1 := rfl
@[simp] theorem State.drawn_trace : (s.drawn).trace = s.trace := rfl
@[simp] theorem State.drawn_inputs : (s.drawn).inputs = s.inputs := rfl
@[simp] theorem State.drawn_params : (s.drawn).params = s.params := rfl

/-! ### `raiseFatal` -/

@[simp] theorem State.raiseFatal_fatal (r : FatalReason) : (s.raiseFatal r).fatal = some r := rfl
@[simp] theorem State.raiseFatal_dlvq (r : FatalReason) : (s.raiseFatal r).dlvq = s.dlvq := rfl
@[simp] theorem State.raiseFatal_sk (r : FatalReason) : (s.raiseFatal r).sk = s.sk := rfl
@[simp] theorem State.raiseFatal_setup (r : FatalReason) : (s.raiseFatal r).setup = none := rfl
@[simp] theorem State.raiseFatal_agents (r : FatalReason) :
    (s.raiseFatal r).agents = s.agents.filter fun w => !w.isU2f := rfl
@[simp] theorem State.raiseFatal_mem (r : FatalReason) : (s.raiseFatal r).mem = s.mem := rfl
@[simp] theorem State.raiseFatal_bufTop (r : FatalReason) :
    (s.raiseFatal r).bufTop = s.bufTop := rfl
@[simp] theorem State.raiseFatal_fresh (r : FatalReason) : (s.raiseFatal r).fresh = s.fresh := rfl
@[simp] theorem State.raiseFatal_draws (r : FatalReason) : (s.raiseFatal r).draws = s.draws := rfl
@[simp] theorem State.raiseFatal_trace (r : FatalReason) :
    (s.raiseFatal r).trace = s.trace ++ [.fatal r] := rfl
@[simp] theorem State.raiseFatal_inputs (r : FatalReason) :
    (s.raiseFatal r).inputs = s.inputs := rfl
@[simp] theorem State.raiseFatal_params (r : FatalReason) :
    (s.raiseFatal r).params = s.params := rfl

/-! ### `doReset` -/

@[simp] theorem State.doReset_fatal (key : Bytes) : (s.doReset key).fatal = none := rfl
@[simp] theorem State.doReset_dlvq (key : Bytes) : (s.doReset key).dlvq = [] := rfl
@[simp] theorem State.doReset_sk (key : Bytes) : (s.doReset key).sk = key := rfl
@[simp] theorem State.doReset_setup (key : Bytes) : (s.doReset key).setup = none := rfl
@[simp] theorem State.doReset_agents (key : Bytes) : (s.doReset key).agents = [] := rfl
@[simp] theorem State.doReset_mem (key : Bytes) : (s.doReset key).mem = s.mem := rfl
@[simp] theorem State.doReset_bufTop (key : Bytes) : (s.doReset key).bufTop = s.bufTop := rfl
@[simp] theorem State.doReset_fresh (key : Bytes) : (s.doReset key).fresh = s.fresh := rfl
@[simp] theorem State.doReset_draws (key : Bytes) : (s.doReset key).draws = s.draws := rfl
@[simp] theorem State.doReset_trace (key : Bytes) :
    (s.doReset key).trace = s.trace ++ [.reset key] := rfl
@[simp] theorem State.doReset_inputs (key : Bytes) : (s.doReset key).inputs = s.inputs := rfl
@[simp] theorem State.doReset_params (key : Bytes) : (s.doReset key).params = s.params := rfl

/-! ### `respondError` -/

@[simp] theorem State.respondError_fatal (k : Tag) (w : StatusWord) :
    (s.respondError k w).fatal = s.fatal := rfl
@[simp] theorem State.respondError_dlvq (k : Tag) (w : StatusWord) :
    (s.respondError k w).dlvq = s.dlvq := rfl
@[simp] theorem State.respondError_sk (k : Tag) (w : StatusWord) :
    (s.respondError k w).sk = s.sk := rfl
@[simp] theorem State.respondError_setup (k : Tag) (w : StatusWord) :
    (s.respondError k w).setup = s.setup := rfl
@[simp] theorem State.respondError_agents (k : Tag) (w : StatusWord) :
    (s.respondError k w).agents = s.agents := rfl
@[simp] theorem State.respondError_mem (k : Tag) (w : StatusWord) :
    (s.respondError k w).mem = s.mem := rfl
@[simp] theorem State.respondError_bufTop (k : Tag) (w : StatusWord) :
    (s.respondError k w).bufTop = s.bufTop := rfl
@[simp] theorem State.respondError_fresh (k : Tag) (w : StatusWord) :
    (s.respondError k w).fresh = s.fresh := rfl
@[simp] theorem State.respondError_draws (k : Tag) (w : StatusWord) :
    (s.respondError k w).draws = s.draws := rfl
@[simp] theorem State.respondError_trace (k : Tag) (w : StatusWord) :
    (s.respondError k w).trace = s.trace ++ [.respond k (response [] w)] := rfl
@[simp] theorem State.respondError_inputs (k : Tag) (w : StatusWord) :
    (s.respondError k w).inputs = s.inputs := rfl
@[simp] theorem State.respondError_params (k : Tag) (w : StatusWord) :
    (s.respondError k w).params = s.params := rfl

/-! ### `accept` -/

@[simp] theorem State.accept_fatal (c : Call) : (s.accept c).fatal = s.fatal := rfl
@[simp] theorem State.accept_dlvq (c : Call) : (s.accept c).dlvq = s.dlvq := rfl
@[simp] theorem State.accept_sk (c : Call) : (s.accept c).sk = s.sk := rfl
@[simp] theorem State.accept_setup (c : Call) : (s.accept c).setup = s.setup := rfl
@[simp] theorem State.accept_agents (c : Call) : (s.accept c).agents = s.agents := rfl
@[simp] theorem State.accept_mem (c : Call) :
    (s.accept c).mem = s.mem.writeBytes s.bufTop (Call.bytes c) := rfl
@[simp] theorem State.accept_bufTop (c : Call) :
    (s.accept c).bufTop = s.bufTop + (Call.bytes c).length := rfl
@[simp] theorem State.accept_fresh (c : Call) : (s.accept c).fresh = s.fresh + 1 := rfl
@[simp] theorem State.accept_draws (c : Call) : (s.accept c).draws = s.draws := rfl
@[simp] theorem State.accept_trace (c : Call) :
    (s.accept c).trace = s.trace ++ [.call (s.arriving c)] := rfl
@[simp] theorem State.accept_inputs (c : Call) : (s.accept c).inputs = s.inputs := rfl
@[simp] theorem State.accept_params (c : Call) : (s.accept c).params = s.params := rfl

end

/-! ### `serve` and `idle` -/

/-- A running block serves the request. -/
theorem State.serve_running {s : State} (h : s.fatal = none) (f : State → State) :
    s.serve f = .next (f s) := by simp [State.serve, h]

/-- A fatal block takes the request and does nothing (60_exceptions.md R273). -/
theorem State.serve_fatal {s : State} {r : FatalReason} (h : s.fatal = some r)
    (f : State → State) : s.serve f = .next s := by simp [State.serve, h]

/-- What `serve` can answer. -/
theorem State.serve_cases {s t : State} {f : State → State} (h : s.serve f = .next t) :
    (s.fatal = none ∧ t = f s) ∨ (s.fatal ≠ none ∧ t = s) := by
  cases hf : s.fatal with
  | none => rw [State.serve_running hf] at h; exact .inl ⟨rfl, by cases h; rfl⟩
  | some r => rw [State.serve_fatal hf] at h; exact .inr ⟨by simp, by cases h; rfl⟩

end Sys2Proof.Machine
end

