-- ==== Sys2Proof/Laws/Memory.lean ====
section
/-! SUPPORT. The buffer memory: what a read after a write gives, and that every operation keeps the
canonical form. -/

namespace Sys2Proof.Machine

/-- An address below every listed one reads as blank. -/
theorem Memory.read_of_lt {m : Memory} {a : Nat} (h : ∀ c ∈ m, a < c.1) :
    Memory.read m a = Memory.blank := by
  induction m with
  | nil => rfl
  | cons c m ih =>
    have h1 := h c (by simp)
    have h2 : a ≠ c.1 := by omega
    simp only [Memory.read, h2, if_false]
    exact ih fun d hd => h d (by simp [hd])

/-- Reading an address after writing it gives the byte written. -/
theorem Memory.read_write_same {m : Memory} (hm : m.wf) (a : Nat) (v : Byte) :
    Memory.read (Memory.write m a v) a = v := by
  induction m with
  | nil => by_cases hv : v = Memory.blank <;> simp [Memory.write, Memory.read, hv]
  | cons c m ih =>
    obtain ⟨b, w⟩ := c
    have hwf : Memory.wf m := ⟨(List.pairwise_cons.1 hm.1).2, fun d hd => hm.2 d (by simp [hd])⟩
    have hb : ∀ d ∈ m, b < d.1 := fun d hd => (List.pairwise_cons.1 hm.1).1 d hd
    rcases Nat.lt_trichotomy a b with h | h | h
    · have hne : a ≠ b := by omega
      by_cases hv : v = Memory.blank
      · have : Memory.read m a = Memory.blank :=
          Memory.read_of_lt fun d hd => Nat.lt_trans h (hb d hd)
        simp only [Memory.write, h, if_true, hv, Memory.read, hne, if_false, this]
      · simp [Memory.write, h, hv, Memory.read]
    · subst h
      by_cases hv : v = Memory.blank
      · simp only [Memory.write, Nat.lt_irrefl, if_false, if_true, hv]
        exact Memory.read_of_lt hb
      · simp [Memory.write, hv, Memory.read]
    · have h1 : ¬ a < b := by omega
      have h2 : a ≠ b := by omega
      simp only [Memory.write, h1, h2, if_false, Memory.read]
      exact ih hwf

/-- Writing one address leaves every other one alone. -/
theorem Memory.read_write_other (m : Memory) {a b : Nat} (v : Byte) (h : b ≠ a) :
    Memory.read (Memory.write m a v) b = Memory.read m b := by
  induction m with
  | nil => by_cases hv : v = Memory.blank <;> simp [Memory.write, Memory.read, hv, h]
  | cons c m ih =>
    obtain ⟨d, w⟩ := c
    rcases Nat.lt_trichotomy a d with h1 | h1 | h1
    · by_cases hv : v = Memory.blank <;> simp [Memory.write, Memory.read, hv, h1, h]
    · subst h1
      by_cases hv : v = Memory.blank <;> simp [Memory.write, Memory.read, hv, h]
    · have h2 : ¬ a < d := by omega
      have h3 : a ≠ d := by omega
      simp [Memory.write, Memory.read, h2, h3, ih]

/-- A written memory lists old addresses and the new one. -/
theorem Memory.mem_write {m : Memory} {a : Nat} {v : Byte} {c : Host.Cell}
    (h : c ∈ Memory.write m a v) : c ∈ m ∨ (c = (a, v) ∧ v ≠ Memory.blank) := by
  induction m with
  | nil =>
    by_cases hv : v = Memory.blank
    · simp [Memory.write, hv] at h
    · simp only [Memory.write, hv, if_false, List.mem_singleton] at h
      exact .inr ⟨h, hv⟩
  | cons d m ih =>
    obtain ⟨b, w⟩ := d
    simp only [Memory.write] at h
    split at h
    · split at h
      · exact .inl h
      · rcases List.mem_cons.1 h with h | h
        · exact .inr ⟨h, ‹_›⟩
        · exact .inl h
    · split at h
      · split at h
        · exact .inl (List.mem_cons_of_mem _ h)
        · rcases List.mem_cons.1 h with h | h
          · exact .inr ⟨h, ‹_›⟩
          · exact .inl (List.mem_cons_of_mem _ h)
      · rcases List.mem_cons.1 h with h | h
        · exact .inl (h ▸ List.mem_cons_self)
        · rcases ih h with h | h
          · exact .inl (List.mem_cons_of_mem _ h)
          · exact .inr h

/-- A write keeps the canonical form. -/
theorem Memory.wf_write {m : Memory} (hm : m.wf) (a : Nat) (v : Byte) :
    (Memory.write m a v).wf := by
  refine ⟨?_, fun c hc => ?_⟩
  · induction m with
    | nil => by_cases hv : v = Memory.blank <;> simp [Memory.write, hv]
    | cons c m ih =>
      obtain ⟨b, w⟩ := c
      have hp := List.pairwise_cons.1 hm.1
      have hwf : Memory.wf m := ⟨hp.2, fun d hd => hm.2 d (by simp [hd])⟩
      rcases Nat.lt_trichotomy a b with h | h | h
      · by_cases hv : v = Memory.blank
        · simpa [Memory.write, h, hv] using hm.1
        · simp only [Memory.write, h, if_true, hv, if_false]
          refine List.pairwise_cons.2 ⟨fun d hd => ?_, hm.1⟩
          rcases List.mem_cons.1 hd with rfl | hd
          · exact h
          · exact Nat.lt_trans h (hp.1 d hd)
      · subst h
        by_cases hv : v = Memory.blank
        · simpa [Memory.write, hv] using hp.2
        · simpa [Memory.write, hv] using hp
      · have h1 : ¬ a < b := by omega
        have h2 : a ≠ b := by omega
        simp only [Memory.write, h1, h2, if_false]
        refine List.pairwise_cons.2 ⟨fun d hd => ?_, ih hwf⟩
        rcases Memory.mem_write hd with hd | ⟨rfl, -⟩
        · exact hp.1 d hd
        · exact h
  · rcases Memory.mem_write hc with hc | ⟨rfl, hv⟩
    · exact hm.2 c hc
    · exact hv

/-- Writing bytes keeps the canonical form. -/
theorem Memory.wf_writeBytes {m : Memory} (hm : m.wf) (a : Nat) (vs : Bytes) :
    (Memory.writeBytes m a vs).wf := by
  induction vs generalizing m a with
  | nil => exact hm
  | cons v vs ih => exact ih (Memory.wf_write hm a v) (a + 1)

/-- Writing bytes leaves every address outside them alone. -/
theorem Memory.read_writeBytes_other (m : Memory) (a : Nat) (vs : Bytes) {b : Nat}
    (h : b < a ∨ a + vs.length ≤ b) :
    Memory.read (Memory.writeBytes m a vs) b = Memory.read m b := by
  induction vs generalizing m a with
  | nil => rfl
  | cons v vs ih =>
    simp only [List.length_cons] at h
    rw [Memory.writeBytes, ih _ _ (by omega), Memory.read_write_other _ _ (by omega)]

/-- Writing bytes puts the i-th byte at the i-th address. -/
theorem Memory.read_writeBytes_same {m : Memory} (hm : m.wf) (a : Nat) (vs : Bytes) {i : Nat}
    (h : i < vs.length) : Memory.read (Memory.writeBytes m a vs) (a + i) = vs.getD i 0 := by
  induction vs generalizing m a i with
  | nil => simp at h
  | cons v vs ih =>
    cases i with
    | zero =>
      rw [Memory.writeBytes, Memory.read_writeBytes_other _ _ _ (by omega)]
      simpa using Memory.read_write_same hm a v
    | succ i =>
      have := ih (Memory.wf_write hm a v) (a + 1) (i := i) (by simpa using h)
      rw [Memory.writeBytes]
      simpa [Nat.add_assoc, Nat.add_comm 1 i] using this

/-- The prefix write of a buffer (20_memory.md R67) is a copy. -/
theorem Memory.copied_writeBytes {m : Memory} (hm : m.wf) (b : BufRef) (data : Bytes) :
    Copied m (m.writeBytes b.base (data.take b.len)) b data := by
  have hl : (data.take b.len).length = copyLen b data := by simp [copyLen, Nat.min_comm]
  refine ⟨fun i hi => ?_, fun a ha => ?_⟩
  · rw [Memory.read_writeBytes_same hm _ _ (by omega)]
    simp only [copyLen] at hi
    simp [List.getD_eq_getElem?_getD, show i < b.len by omega]
  · exact Memory.read_writeBytes_other _ _ _ (by omega)

/-- The memory after RESET is canonical. -/
theorem Memory.wf_reset : State.reset.mem.wf := by simp [State.reset, Memory.wf]

end Sys2Proof.Machine
end

