-- ==== Sys2Proof/Laws/Exec.lean ====
section
/-! SUPPORT. What each shared operation, each instruction and each step can do, said once as inversion
lemmas: "if it answers a next state, then one of these cases holds". -/

namespace Sys2Proof.Machine

/-! ### Replies and copies -/

/-- `reply` does what `Replied` says (42_endpoint_transfers.md R182). -/
theorem State.reply_replied {s : State} (hm : s.mem.wf) (x : Xfer) (data : Bytes) :
    Replied s (s.reply x data) x data where
  memory := Memory.copied_writeBytes hm x.buf data
  event := rfl
  fatal := rfl
  dlvq := rfl
  sk := rfl
  latch := rfl
  agents := rfl
  bufTop := rfl
  fresh := rfl
  draws := rfl
  inputs := rfl
  params := rfl

/-- A reply forgets the latch it was made from. -/
@[simp] theorem State.latchSetup_reply (s : State) (p : Setup) (x : Xfer) (data : Bytes) :
    (s.latchSetup p).reply x data = s.reply x data := rfl

/-- So does a fatal entry. -/
@[simp] theorem State.latchSetup_raiseFatal (s : State) (p : Setup) (r : FatalReason) :
    (s.latchSetup p).raiseFatal r = s.raiseFatal r := rfl

/-! ### U2F calls -/

/-- The four status words the block emits (30_encoding.md R118). -/
def StatusWord.emitted (w : StatusWord) : Prop :=
  w ∈ [StatusWord.noError, .conditionsNotSatisfied, .wrongData, .wrongLength]

/-- How a stretch of a U2F(k) call between two suspension points can end: a response, a fatal entry, or
the next port-C call. -/
inductive U2fEnds (k : Tag) (s t : State) : Prop where
  | responds (data : Bytes) (w : StatusWord) (hw : w.emitted) (h : t = s.respond k (response data w))
  | fatal (r : FatalReason) (h : t = s.raiseFatal r)
  | calls (d : Apdu) (w : U2fWait) (c : CCall) (h : t = s.callC (.u2f k d w) c)

/-- A stretch that may also have used one draw. -/
def U2fRuns (k : Tag) (s t : State) : Prop := U2fEnds k s t ∨ U2fEnds k s.drawn t

theorem respondError_ends (k : Tag) (s : State) {w : StatusWord} (hw : w.emitted) :
    U2fEnds k s (s.respondError k w) := .responds [] w hw rfl

theorem emitted_wrongData : StatusWord.emitted .wrongData := by simp [StatusWord.emitted]
theorem emitted_wrongLength : StatusWord.emitted .wrongLength := by simp [StatusWord.emitted]
theorem emitted_noError : StatusWord.emitted .noError := by simp [StatusWord.emitted]
theorem emitted_conditions : StatusWord.emitted .conditionsNotSatisfied := by
  simp [StatusWord.emitted]

theorem registerWithKey_runs (U : Units) (k : Tag) (d : Apdu) (c : Challenge)
    (okp : Option KeyPair) (s : State) : U2fRuns k s (registerWithKey U k d c okp s) := by
  unfold registerWithKey
  cases okp with
  | none => exact .inl (.fatal _ rfl)
  | some kp =>
    dsimp only
    cases U.sealBox s.sk (keyHandleFor U kp c) (Config.draw s.draws) with
    | none => exact .inr (.fatal _ rfl)
    | some handle => exact .inr (.calls _ _ _ rfl)

theorem registerApproved_runs (k : Tag) (d : Apdu) (c : Challenge) (kp : KeyPair)
    (handle : Bytes) (ok : Bool) (s : State) :
    U2fRuns k s (registerApproved k d c kp handle ok s) := by
  cases ok with
  | false => exact .inl (respondError_ends k s emitted_conditions)
  | true => exact .inl (.calls _ _ _ rfl)

theorem registerWithCertificate_runs (U : Units) (k : Tag) (c : Challenge) (kp : KeyPair)
    (handle : Bytes) (oc : Option Bytes) (s : State) :
    U2fRuns k s (registerWithCertificate U k c kp handle oc s) := by
  unfold registerWithCertificate
  cases oc with
  | none => exact .inl (.fatal _ rfl)
  | some cert =>
    dsimp only
    cases U.sign (U.priv kp) (registerMessage U c kp handle) (Config.draw s.draws) with
    | none => exact .inr (.fatal _ rfl)
    | some sig =>
      dsimp only
      split
      · exact .inr (.fatal _ rfl)
      · exact .inr (.responds _ _ emitted_noError rfl)

theorem signAssertion_runs (k : Tag) (d : Apdu) (c : Challenge) (kh : KeyHandle) (s : State) :
    U2fRuns k s (signAssertion k d c kh s) := .inl (.calls _ _ _ rfl)

theorem authenticationAnswered_runs (k : Tag) (d : Apdu) (c : Challenge) (kh : KeyHandle)
    (ok : Bool) (s : State) : U2fRuns k s (authenticationAnswered k d c kh ok s) := by
  cases ok with
  | false => exact .inl (respondError_ends k s emitted_conditions)
  | true => exact signAssertion_runs k d c kh s

theorem assertionWithCounter_runs (U : Units) (k : Tag) (c : Challenge) (kh : KeyHandle)
    (ctr : BitVec 32) (s : State) : U2fRuns k s (assertionWithCounter U k c kh ctr s) := by
  unfold assertionWithCounter
  cases U.privDec kh.privateKey with
  | none => exact .inl (.fatal _ rfl)
  | some priv =>
    dsimp only
    cases U.sign priv (assertionMessage c ctr) (Config.draw s.draws) with
    | none => exact .inr (.fatal _ rfl)
    | some sig => exact .inr (.responds _ _ emitted_noError rfl)

/-- Whatever a U2F call does with an answer, it ends one of the three ways. -/
theorem resumeU2f_runs {U : Units} {k : Tag} {d : Apdu} {w : U2fWait} {a : Answer}
    {f : State → State} (h : resumeU2f U k d w a = some f) (s : State) : U2fRuns k s (f s) := by
  unfold resumeU2f at h
  split at h <;> cases h
  · exact registerWithKey_runs ..
  · exact registerApproved_runs ..
  · exact registerWithCertificate_runs ..
  · exact authenticationAnswered_runs ..
  · exact assertionWithCounter_runs ..

/-- The common part of AUTHENTICATE responds 6A80 or goes on to the branch. -/
theorem authenticate_ends {U : Units} {k : Tag} {request : Bytes}
    {branch : Challenge → KeyHandle → State → State}
    (h : ∀ c kh s, U2fEnds k s (branch c kh s)) (s : State) :
    U2fEnds k s (authenticate U k request branch s) := by
  unfold authenticate
  cases openAssertion U s.sk request with
  | none => exact respondError_ends k s emitted_wrongData
  | some p => exact h p.1 p.2 s

/-! ### Instructions -/

/-- What a running block does on an instruction. -/
inductive ExecRuns (i : Instr) (s t : State) : Prop where
  /-- an EP0 request is answered (R182) -/
  | reply (x : Xfer) (data : Bytes) (hi : i.replyTo = some x) (h : t = s.reply x data)
  /-- a fatal error (R272) -/
  | fatal (r : FatalReason) (h : t = s.raiseFatal r)
  /-- a delivery is queued (R183) -/
  | deliver (x : Xfer) (b : SetupBytes) (hi : i = .urbDeliver x b)
      (h : t = { s with dlvq := s.dlvq ++ [⟨x, .queued⟩] })
  /-- a buffer is handed to H (R187) -/
  | intake (x : Xfer) (b : SetupBytes) (hi : i = .urbIntake x b)
      (h : t = s.callH (.intake x) (.handleMessage x.buf (s.bufBytes x.buf)))
  /-- a cancellation asks H (R189) -/
  | cancel (k : Tag) (id : UrbId) (hi : i = .cancel k id)
      (h : t = s.callH (.cancelling k id) (.removeWaitingRequest id))
  /-- a port-T query returns (R191) -/
  | returns (k : Tag) (v : Returned) (h : t = s.returnT k v)
  /-- a U2F call runs to its end or to its first port-C call; no draw is used -/
  | u2f (k : Tag) (h : U2fEnds k s t)

/-- Once the block runs, an instruction does one of the things of `ExecRuns`. -/
theorem serve_runs {i : Instr} {s t : State} {f : State → State} (h : s.serve f = .next t)
    (hr : ExecRuns i s (f s)) :
    (s.fatal = none ∧ ExecRuns i s t) ∨ (s.fatal ≠ none ∧ t = s) := by
  rcases State.serve_cases h with ⟨hf, rfl⟩ | h
  · exact .inl ⟨hf, hr⟩
  · exact .inr h

/-- The same for the request of a control URB, whose reply and fatal entry forget the latch. -/
theorem control_runs {x : Xfer} {b : SetupBytes} {p : Setup} {s t : State} {f : State → State}
    (h : (s.latchSetup p).serve f = .next t) (hf : s.fatal = none)
    (hr : ExecRuns (.urbControl x b) s (f (s.latchSetup p))) :
    (s.fatal = none ∧ ExecRuns (.urbControl x b) s t) ∨ (s.fatal ≠ none ∧ t = s) := by
  rw [State.serve_running (by simpa using hf)] at h
  cases h
  exact .inl ⟨hf, hr⟩

/-- Inversion of `exec`: a fatal block does nothing (60_exceptions.md R273), a running one does one of
the things of `ExecRuns`. -/
theorem exec_cases {i : Instr} {s t : State} (h : exec i s = .next t) :
    (s.fatal = none ∧ ExecRuns i s t) ∨ (s.fatal ≠ none ∧ t = s) := by
  cases i with
  | getDescriptorDevice x a d =>
    simp only [exec, execGetDescriptorDevice] at h
    exact serve_runs h (.reply x _ rfl rfl)
  | getDescriptorConfiguration x a d =>
    simp only [exec, execGetDescriptorConfiguration] at h
    exact serve_runs h (.reply x _ rfl rfl)
  | getDescriptorString x a d =>
    simp only [exec, execGetDescriptorString] at h
    refine serve_runs h ?_
    split
    · exact .reply x _ rfl rfl
    · exact .fatal _ rfl
  | fatalDeviceGetDescriptorType x a t d =>
    simp only [exec, execFatalDeviceGetDescriptorType] at h
    exact serve_runs h (.fatal _ rfl)
  | setConfiguration x a v =>
    simp only [exec, execSetConfiguration] at h
    exact serve_runs h (.reply x _ rfl rfl)
  | getStatus x a v =>
    simp only [exec, execGetStatus] at h
    exact serve_runs h (.reply x _ rfl rfl)
  | fatalDeviceUnknownRequest x a r v =>
    simp only [exec, execFatalDeviceUnknownRequest] at h
    exact serve_runs h (.fatal _ rfl)
  | setIdle x a v =>
    simp only [exec, execSetIdle] at h
    exact serve_runs h (.reply x _ rfl rfl)
  | setProtocol x a v =>
    simp only [exec, execSetProtocol] at h
    exact serve_runs h (.reply x _ rfl rfl)
  | getDescriptorHidReport x a d =>
    simp only [exec, execGetDescriptorHidReport] at h
    exact serve_runs h (.reply x _ rfl rfl)
  | fatalInterfaceGetDescriptorType x a t d =>
    simp only [exec, execFatalInterfaceGetDescriptorType] at h
    exact serve_runs h (.fatal _ rfl)
  | fatalInterfaceUnknownRequest x a r v =>
    simp only [exec, execFatalInterfaceUnknownRequest] at h
    exact serve_runs h (.fatal _ rfl)
  | fatalUnknownRecipient x a rec r v =>
    simp only [exec, execFatalUnknownRecipient] at h
    exact serve_runs h (.fatal _ rfl)
  | urbControl x b =>
    simp only [exec, execUrbControl] at h
    split at h
    · next hf =>
      simp only [runControl, State.latchSetup_setup, execGetDescriptorDevice,
        execGetDescriptorConfiguration, execGetDescriptorString, execFatalDeviceGetDescriptorType,
        execSetConfiguration, execGetStatus, execFatalDeviceUnknownRequest, execSetIdle,
        execSetProtocol, execGetDescriptorHidReport, execFatalInterfaceGetDescriptorType,
        execFatalInterfaceUnknownRequest, execFatalUnknownRecipient] at h
      split at h
      · exact control_runs h hf (.reply x _ rfl rfl)
      · exact control_runs h hf (.reply x _ rfl rfl)
      · refine control_runs h hf ?_
        split
        · exact .reply x _ rfl rfl
        · exact .fatal _ rfl
      · exact control_runs h hf (.fatal _ rfl)
      · exact control_runs h hf (.reply x _ rfl rfl)
      · exact control_runs h hf (.reply x _ rfl rfl)
      · exact control_runs h hf (.fatal _ rfl)
      · exact control_runs h hf (.reply x _ rfl rfl)
      · exact control_runs h hf (.reply x _ rfl rfl)
      · exact control_runs h hf (.reply x _ rfl rfl)
      · exact control_runs h hf (.fatal _ rfl)
      · exact control_runs h hf (.fatal _ rfl)
      · exact control_runs h hf (.fatal _ rfl)
    · next r hf =>
      cases h
      exact .inr ⟨by simp [hf], rfl⟩
  | urbDeliver x b =>
    simp only [exec, execUrbDeliver] at h
    exact serve_runs h (.deliver x b rfl rfl)
  | urbIntake x b =>
    simp only [exec, execUrbIntake] at h
    exact serve_runs h (.intake x b rfl rfl)
  | fatalUnknownEndpoint x b e =>
    simp only [exec, execFatalUnknownEndpoint] at h
    exact serve_runs h (.fatal _ rfl)
  | cancel k id =>
    simp only [exec, execCancel] at h
    exact serve_runs h (.cancel k id rfl rfl)
  | busId k =>
    simp only [exec, execBusId] at h
    exact serve_runs h (.returns k _ rfl)
  | deviceSummary k =>
    simp only [exec, execDeviceSummary] at h
    exact serve_runs h (.returns k _ rfl)
  | u2fRegister k cla p1 p2 req le =>
    simp only [exec, execU2fRegister] at h
    refine serve_runs h (.u2f k ?_)
    split
    · exact respondError_ends k s emitted_wrongData
    · exact .calls _ _ _ rfl
  | u2fAuthenticateCheckOnly k cla p2 req le =>
    simp only [exec, execU2fAuthenticateCheckOnly] at h
    exact serve_runs h (.u2f k (authenticate_ends
      (fun _ _ s => respondError_ends k s emitted_conditions) s))
  | u2fAuthenticateEnforce k cla p2 req le =>
    simp only [exec, execU2fAuthenticateEnforce] at h
    exact serve_runs h (.u2f k (authenticate_ends (fun _ _ _ => .calls _ _ _ rfl) s))
  | u2fAuthenticateSign k cla p2 req le =>
    simp only [exec, execU2fAuthenticateSign] at h
    exact serve_runs h (.u2f k (authenticate_ends (fun _ _ _ => .calls _ _ _ rfl) s))
  | u2fAuthenticateOtherP1 k cla p1 p2 req le =>
    simp only [exec, execU2fAuthenticateOtherP1] at h
    exact serve_runs h (.u2f k (authenticate_ends
      (fun _ _ s => respondError_ends k s emitted_wrongLength) s))
  | u2fVersion k cla p1 p2 req le =>
    simp only [exec, execU2fVersion] at h
    exact serve_runs h (.u2f k (.responds _ _ emitted_noError rfl))
  | fatalUnknownIns k cla ins p1 p2 req le =>
    simp only [exec, execFatalUnknownIns] at h
    exact serve_runs h (.fatal _ rfl)

/-! ### Answers, acquire, steps -/

/-- What the answer to a call can do. -/
inductive ResumeRuns (t : Tag) (a : Answer) (s s' : State) : Prop where
  /-- nobody waits for it, or it is of another kind: discarded -/
  | discarded (h : s' = s.discard t a)
  /-- the WAITING head completes with data (R185) -/
  | delivered (x : Xfer) (rest : List DlvEntry) (data : Bytes)
      (hq : s.dlvq = ⟨x, .waiting t⟩ :: rest) (ha : a = .response (some data))
      (h : s' = State.copyOut
        { s with dlvq := rest, trace := s.trace ++ [.answered t a] } x data)
  /-- the WAITING head times out (R186) -/
  | timedOut (x : Xfer) (rest : List DlvEntry) (hq : s.dlvq = ⟨x, .waiting t⟩ :: rest)
      (ha : a = .response none)
      (h : s' = { s with dlvq := rest, trace := s.trace ++ [.answered t a] })
  /-- an intake finishes (R187) -/
  | intake (x : Xfer) (hw : s.waitingFor t = some (.intake x)) (ha : a = .handled)
      (h : s' = (s.takeAnswer t a).intakeReturned x)
  /-- a cancellation is answered (R189) -/
  | cancel (k : Tag) (id : UrbId) (b : Bool) (hw : s.waitingFor t = some (.cancelling k id))
      (ha : a = .removed b) (h : s' = (s.takeAnswer t a).cancelAnswered k id b)
  /-- a U2F call runs on -/
  | u2f (k : Tag) (d : Apdu) (w : U2fWait) (hw : s.waitingFor t = some (.u2f k d w))
      (h : U2fRuns k (s.takeAnswer t a) s')

/-- Inversion of `resumeAgent`. -/
theorem State.resumeAgent_cases (U : Units) (s : State) (t : Tag) (a : Answer) :
    ResumeRuns t a s (s.resumeAgent U t a) := by
  unfold State.resumeAgent
  cases hw : s.waitingFor t with
  | none => exact .discarded rfl
  | some g =>
    dsimp only
    cases g with
    | intake x => cases a <;> first | exact .intake x hw rfl rfl | exact .discarded rfl
    | cancelling k id => cases a <;> first | exact .cancel k id _ hw rfl rfl | exact .discarded rfl
    | u2f k d w =>
      cases hr : resumeU2f U k d w a with
      | none =>
        have : Agent.resume U (.u2f k d w) a = none := by
          cases a <;> simpa [Agent.resume] using hr
        rw [this]
        exact .discarded rfl
      | some f =>
        have : Agent.resume U (.u2f k d w) a = some f := by
          cases a <;> simpa [Agent.resume] using hr
        rw [this]
        exact .u2f k d w hw (resumeU2f_runs hr _)

/-- Inversion of `resume`: a fatal block discards the answer (60_exceptions.md R273), a running one
does one of the things of `ResumeRuns`. -/
theorem State.resume_cases (U : Units) (s : State) (t : Tag) (a : Answer) :
    (s.fatal = none ∧ ResumeRuns t a s (s.resume U t a)) ∨
      (s.fatal ≠ none ∧ s.resume U t a = s.discard t a) := by
  unfold State.resume
  split
  · next r hf => exact .inr ⟨by simp [hf], rfl⟩
  · next hf =>
    refine .inl ⟨hf, ?_⟩
    split
    · next x t' rest r hq =>
      split
      · next ht =>
        subst ht
        cases r with
        | none => exact .timedOut x rest hq rfl rfl
        | some data => exact .delivered x rest data hq rfl rfl
      · exact s.resumeAgent_cases U t _
    · exact s.resumeAgent_cases U t _

/-- While FATAL holds an answer is discarded (60_exceptions.md R273). -/
theorem State.resume_fatal {U : Units} {s : State} {r : FatalReason} (h : s.fatal = some r)
    (t : Tag) (a : Answer) : s.resume U t a = s.discard t a := by simp [State.resume, h]

/-- Who waits for a call does not depend on the schedule. -/
@[simp] theorem State.waitingFor_inputs (s : State) (more : List Input) (t : Tag) :
    State.waitingFor { s with inputs := more } t = s.waitingFor t := rfl

/-- An answer that is not of `H.get_response` is for a suspended agent (60_exceptions.md R275). -/
theorem State.resume_eq_resumeAgent {U : Units} {s : State} (hf : s.fatal = none) {t : Tag}
    {a : Answer} (ha : ∀ r, a ≠ .response r) : s.resume U t a = s.resumeAgent U t a := by
  unfold State.resume
  rw [hf]
  dsimp only
  split
  · exact absurd rfl (ha _)
  · rfl

/-- A suspended agent runs on at the answer it waits for. -/
theorem State.resumeAgent_of_waiting {U : Units} {s : State} {t : Tag} {a : Answer} {g : Agent}
    {run : State → State} (hw : s.waitingFor t = some g) (hr : g.resume U a = some run) :
    s.resumeAgent U t a = run (s.takeAnswer t a) := by
  simp [State.resumeAgent, hw, hr]

/-- The kinds that `Agent.takes` names for the premises of Safety.lean are those an agent runs on at. -/
theorem Agent.resume_isSome (U : Units) (g : Agent) (a : Answer) :
    (g.resume U a).isSome = g.takes a := by
  cases g with
  | intake x => cases a <;> rfl
  | cancelling k id => cases a <;> rfl
  | u2f k d w => cases w <;> cases a <;> rfl

/-- Inversion of `acquire` (R184). -/
theorem State.acquire_cases (s : State) :
    s.acquire = s ∨ ∃ x rest, s.fatal = none ∧ s.dlvq = ⟨x, .queued⟩ :: rest ∧
      (∀ e ∈ rest, e.phase = .queued) ∧
      s.acquire = { s with
        dlvq := ⟨x, .waiting s.fresh⟩ :: rest
        fresh := s.fresh + 1
        trace := s.trace ++ [.callH s.fresh (.getResponse x.id Config.getResponseTimeoutMs)] } := by
  unfold State.acquire
  split
  · next x rest hf hq =>
    split
    · next ha => exact .inr ⟨x, rest, hf, hq, by simpa using ha, rfl⟩
    · exact .inl rfl
  · exact .inl rfl

/-- What a step can be. -/
inductive StepRuns (s t : State) : Prop where
  /-- no input: a running block waits -/
  | idle (hi : s.inputs = []) (h : t = s)
  /-- a call is decoded and its instruction run -/
  | instr (c : Call) (rest : List Input) (i : Instr) (hi : s.inputs = .call c :: rest)
      (hd : decode (s.arriving c) = .ok i)
      (h : exec i (State.accept { s with inputs := rest } c) = .next t)
  /-- an APDU is malformed -/
  | malformed (c : Call) (rest : List Input) (e : DecodeError) (hi : s.inputs = .call c :: rest)
      (hd : decode (s.arriving c) = .error e)
      (h : rejectApdu s.fresh e (State.accept { s with inputs := rest } c) = .next t)
  /-- the head of the delivery queue is scheduled -/
  | acquire (rest : List Input) (hi : s.inputs = .acquire :: rest)
      (h : t = State.acquire { s with inputs := rest })
  /-- an answer arrives -/
  | answer (c : Tag) (a : Answer) (rest : List Input) (hi : s.inputs = .answer c a :: rest)
      (h : t = State.resume Config.units { s with inputs := rest } c a)
  /-- RESET -/
  | reset (key : Bytes) (rest : List Input) (hi : s.inputs = .reset key :: rest)
      (h : t = State.doReset { s with inputs := rest } key)

/-- Inversion of `step`. -/
theorem step_cases {s t : State} (h : step s = .next t) : StepRuns s t := by
  unfold step at h
  split at h
  · next hi =>
    unfold State.idle at h
    split at h
    · cases h; exact .idle hi rfl
    · cases h
  · next i rest hi =>
    cases i with
    | call c =>
      simp only [stepInput] at h
      split at h
      · next i hd => exact .instr c rest i hi hd h
      · next e hd => exact .malformed c rest e hi hd h
    | acquire => cases h; exact .acquire rest hi rfl
    | answer c a => cases h; exact .answer c a rest hi rfl
    | reset key => cases h; exact .reset key rest hi rfl

end Sys2Proof.Machine
end

