-- ==== Sys2Proof/Laws/Decode.lean ====
section
/-! SUPPORT. The decoders against the encoder: the byte-order helpers undo each other, the fields of
encoded setup bytes are the operands, the body of an encoded APDU is the request and Le. -/

namespace Sys2Proof

/-! ### Byte order -/

/-- The upper field of an appended pair. -/
theorem upper_append {m n : Nat} (h : BitVec m) (l : BitVec n) :
    (h ++ l).extractLsb' n m = h := by
  apply BitVec.eq_of_getLsbD_eq
  intro i hi
  simp [BitVec.getLsbD_append, hi]

/-- The lower field of an appended pair. -/
theorem lower_append {m n : Nat} (h : BitVec m) (l : BitVec n) :
    (h ++ l).extractLsb' 0 n = l := by
  apply BitVec.eq_of_getLsbD_eq
  intro i hi
  simp [BitVec.getLsbD_append, hi]

/-- A vector is its upper and lower field appended. -/
theorem append_extract {m n : Nat} (v : BitVec (m + n)) :
    v.extractLsb' n m ++ v.extractLsb' 0 n = v := by
  apply BitVec.eq_of_getLsbD_eq
  intro i hi
  rw [BitVec.getLsbD_append]
  by_cases h : i < n
  · simp [h]
  · simp [h, show i - n < m by omega, show n + (i - n) = i by omega]

/-- Two halves put back together (high ++ low). -/
theorem append_halves (v : BitVec 16) : v.extractLsb' 8 8 ++ v.extractLsb' 0 8 = v :=
  append_extract (m := 8) (n := 8) v

@[simp] theorem rd16le_u16le (v : BitVec 16) :
    rd16le (v.extractLsb' 0 8) (v.extractLsb' 8 8) = v := append_halves v

@[simp] theorem rd16be_u16be (v : BitVec 16) :
    rd16be (v.extractLsb' 8 8) (v.extractLsb' 0 8) = v := append_halves v

/-- The high half of two bytes put together. -/
@[simp] theorem high_append (h l : Byte) : (h ++ l).extractLsb' 8 8 = h := upper_append h l

/-- The low half of two bytes put together. -/
@[simp] theorem low_append (h l : Byte) : (h ++ l).extractLsb' 0 8 = l := lower_append h l

/-! ### `bmRequestType` (30_encoding.md R101) -/

theorem recipient_append (d : BitVec 1) (k : BitVec 2) (r : BitVec 5) :
    (d ++ k ++ r : BitVec 8).extractLsb' 0 5 = r := lower_append (d ++ k) r

theorem kind_append (d : BitVec 1) (k : BitVec 2) (r : BitVec 5) :
    (d ++ k ++ r : BitVec 8).extractLsb' 5 2 = k := by
  have h : (d ++ k ++ r : BitVec (1 + 2 + 5)).extractLsb' 5 2 = k := by
    apply BitVec.eq_of_getLsbD_eq
    intro i hi
    rw [BitVec.getLsbD_extractLsb', BitVec.getLsbD_append, BitVec.getLsbD_append]
    simp [hi]
  exact h

theorem direction_append (d : BitVec 1) (k : BitVec 2) (r : BitVec 5) :
    (d ++ k ++ r : BitVec 8).extractLsb' 7 1 = d := by
  have h : (d ++ k ++ r : BitVec (1 + 2 + 5)).extractLsb' 7 1 = d := by
    apply BitVec.eq_of_getLsbD_eq
    intro i hi
    rw [BitVec.getLsbD_extractLsb', BitVec.getLsbD_append, BitVec.getLsbD_append]
    have : i = 0 := by omega
    subst this
    simp
  exact h

/-- The type byte is its three fields. -/
theorem append_fields (v : Byte) :
    (v.extractLsb' 7 1 ++ v.extractLsb' 5 2 ++ v.extractLsb' 0 5 : BitVec 8) = v := by
  have h : v.extractLsb' 7 1 ++ v.extractLsb' 5 2 = v.extractLsb' 5 3 := by
    revert v
    decide
  rw [h]
  exact append_extract (m := 3) (n := 5) v

/-! ### Setup bytes -/

section
variable (r : BitVec 5) (a : Attrs) (q : Byte) (v : BitVec 16)

@[simp] theorem fields_encode_recipient : (encodeFields r a q v).fields.recipient = r :=
  recipient_append _ _ _

@[simp] theorem fields_encode_bRequest : (encodeFields r a q v).fields.bRequest = q := rfl

@[simp] theorem fields_encode_wValue : (encodeFields r a q v).fields.wValue = v := rd16le_u16le v

@[simp] theorem fields_encode_attrs : (encodeFields r a q v).fields.attrs = a := by
  cases a with
  | mk k d i l =>
    simp only [Setup.attrs, Setup.kind, Setup.direction, encodeFields, SetupBytes.fields,
      rd16le_u16le, kind_append, direction_append]

@[simp] theorem fields_encode_descType (t d : Byte) :
    (encodeFields r a q (t ++ d)).fields.descType = t := by
  simp [Setup.descType]

@[simp] theorem fields_encode_descIndex (t d : Byte) :
    (encodeFields r a q (t ++ d)).fields.descIndex = d := by
  simp [Setup.descIndex]

end

/-- Any 8 bytes are the encoding of their fields. -/
theorem encodeFields_fields (b : SetupBytes) :
    encodeFields b.fields.recipient b.fields.attrs b.fields.bRequest b.fields.wValue = b := by
  cases b with
  | mk b0 b1 b2 b3 b4 b5 b6 b7 =>
    simp only [encodeFields, SetupBytes.fields, Setup.attrs, Setup.kind, Setup.direction,
      Setup.recipient, rd16le, high_append, low_append, append_fields]

/-- The type and index of a GET_DESCRIPTOR packet are its `wValue` (R103). -/
theorem descType_append_descIndex (p : Setup) : p.descType ++ p.descIndex = p.wValue :=
  append_halves _

/-! ### Open codes (00_scope.md R8) that are distinct -/

section
variable {q : RequestCodes} (h : q.Distinct)
include h

/-- No two recipients share a code. -/
theorem RequestCodes.Distinct.recipients :
    q.recInterface ≠ q.recDevice ∧ q.recEndpoint ≠ q.recDevice ∧ q.recEndpoint ≠ q.recInterface := by
  have := h.1
  simp only [List.nodup_cons, List.mem_cons, not_or] at this
  exact ⟨Ne.symm this.1.1, Ne.symm this.1.2.1, Ne.symm this.2.1.1⟩

/-- No two device requests share a code. -/
theorem RequestCodes.Distinct.device :
    q.reqSetConfiguration ≠ q.reqGetDescriptor ∧ q.reqGetStatus ≠ q.reqGetDescriptor ∧
      q.reqGetStatus ≠ q.reqSetConfiguration := by
  have := h.2.1
  simp only [List.nodup_cons, List.mem_cons, not_or] at this
  exact ⟨Ne.symm this.1.1, Ne.symm this.1.2.1, Ne.symm this.2.1.1⟩

/-- No two interface requests share a code. -/
theorem RequestCodes.Distinct.interface :
    q.reqSetProtocol ≠ q.reqSetIdle ∧ q.reqGetDescriptor ≠ q.reqSetIdle ∧
      q.reqGetDescriptor ≠ q.reqSetProtocol := by
  have := h.2.2
  simp only [List.nodup_cons, List.mem_cons, not_or] at this
  exact ⟨Ne.symm this.1.1, Ne.symm this.1.2.1, Ne.symm this.2.1.1⟩

end

/-! ### The fixed codes of a field are distinct (30_encoding.md R104, R111, R112) -/

@[simp] theorem descDevice_ne_descConfiguration :
    (Config.descDevice = Config.descConfiguration) = False := by decide
@[simp] theorem descDevice_ne_descString :
    (Config.descDevice = Config.descString) = False := by decide
@[simp] theorem descConfiguration_ne_descDevice :
    (Config.descConfiguration = Config.descDevice) = False := by decide
@[simp] theorem descConfiguration_ne_descString :
    (Config.descConfiguration = Config.descString) = False := by decide
@[simp] theorem descString_ne_descDevice :
    (Config.descString = Config.descDevice) = False := by decide
@[simp] theorem descString_ne_descConfiguration :
    (Config.descString = Config.descConfiguration) = False := by decide
@[simp] theorem insVersion_ne_insRegister :
    (Config.insVersion = Config.insRegister) = False := by decide
@[simp] theorem insVersion_ne_insAuthenticate :
    (Config.insVersion = Config.insAuthenticate) = False := by decide
@[simp] theorem insRegister_ne_insVersion :
    (Config.insRegister = Config.insVersion) = False := by decide
@[simp] theorem insRegister_ne_insAuthenticate :
    (Config.insRegister = Config.insAuthenticate) = False := by decide
@[simp] theorem insAuthenticate_ne_insVersion :
    (Config.insAuthenticate = Config.insVersion) = False := by decide
@[simp] theorem insAuthenticate_ne_insRegister :
    (Config.insAuthenticate = Config.insRegister) = False := by decide
@[simp] theorem p1CheckOnly_ne_p1Enforce :
    (Config.p1CheckOnly = Config.p1Enforce) = False := by decide
@[simp] theorem p1CheckOnly_ne_p1Sign : (Config.p1CheckOnly = Config.p1Sign) = False := by decide
@[simp] theorem p1Enforce_ne_p1CheckOnly :
    (Config.p1Enforce = Config.p1CheckOnly) = False := by decide
@[simp] theorem p1Enforce_ne_p1Sign : (Config.p1Enforce = Config.p1Sign) = False := by decide
@[simp] theorem p1Sign_ne_p1CheckOnly : (Config.p1Sign = Config.p1CheckOnly) = False := by decide
@[simp] theorem p1Sign_ne_p1Enforce : (Config.p1Sign = Config.p1Enforce) = False := by decide

/-! ### `classify` (30_encoding.md R106) -/

theorem classify_device {q : RequestCodes} {p : Setup} (h : p.recipient = q.recDevice) :
    classify q p = classifyDevice q p := by simp [classify, h]

theorem classify_interface {q : RequestCodes} (hq : q.Distinct) {p : Setup}
    (h : p.recipient = q.recInterface) : classify q p = classifyInterface q p := by
  simp [classify, h, hq.recipients.1]

/-! ### APDUs (43_apdu_framing.md R210) -/

/-- What follows the data, when it is `Le` in its shortest form. -/
theorem decodeLe_encode (le : BitVec 16) :
    decodeLe (if le = 0 then [] else u16be le) = .ok le := by
  by_cases h : le = 0
  · rw [if_pos h, h]; rfl
  · rw [if_neg h, u16be, decodeLe, rd16be_u16be]

/-- An encoded body decodes to its request and Le. -/
theorem decodeBody_encode {req : Bytes} (le : BitVec 16) (h : requestFits req = true) :
    decodeBody (encodeBody req le) = .ok (req, le) := by
  by_cases hr : req = []
  · by_cases hl : le = 0
    · simp [encodeBody, hr, hl, decodeBody]
    · rw [encodeBody, if_pos hr, if_neg hl, hr]
      simp [decodeBody, u16be, decodeData]
  · have hlen : (BitVec.ofNat 16 req.length).toNat = req.length := by
      simp only [requestFits, decide_eq_true_eq] at h
      simp only [BitVec.toNat_ofNat]
      omega
    have hd : decodeData (BitVec.ofNat 16 req.length)
        (req ++ if le = 0 then [] else u16be le) = .ok (req, le) := by
      obtain ⟨x, xs, rfl⟩ := List.exists_cons_of_ne_nil hr
      rw [List.cons_append, decodeData, ← List.cons_append, hlen]
      simp only [List.length_append, List.drop_left, List.take_left, decodeLe_encode]
      rw [if_neg (by omega)]
      rfl
    simp only [encodeBody, hr, if_false, decodeBody, u16be, List.cons_append, List.nil_append,
      ne_eq, not_true_eq_false, rd16be_u16be]
    exact hd

/-- An encoded APDU decodes to itself. -/
theorem decodeApdu_encode (d : Apdu) (h : requestFits d.request = true) :
    decodeApdu (encodeApdu d) = .ok d := by
  simp [decodeApdu, encodeApdu, decodeBody_encode d.le h, Except.map]

/-- The request of a decoded APDU fits its length field. -/
theorem decodeApdu_fits {a : Bytes} {d : Apdu} (h : decodeApdu a = .ok d) :
    requestFits d.request = true := by
  have hData : ∀ l1 rest r, decodeData l1 rest = .ok r → requestFits r.1 = true := by
    intro l1 rest r hr
    unfold decodeData at hr
    split at hr
    · cases hr; rfl
    · split at hr
      · cases hr
      · cases hL : decodeLe (List.drop l1.toNat (_ :: _)) with
        | error e => rw [hL] at hr; cases hr
        | ok le =>
          rw [hL] at hr
          cases hr
          have := l1.isLt
          simp only [requestFits, List.length_take, decide_eq_true_eq]
          omega
  have hBody : ∀ body r, decodeBody body = .ok r → requestFits r.1 = true := by
    intro body r hr
    unfold decodeBody at hr
    split at hr
    · cases hr; rfl
    · split at hr
      · cases hr
      · split at hr
        · exact hData _ _ _ hr
        · cases hr
  unfold decodeApdu at h
  split at h
  · cases hB : decodeBody _ with
    | error e => rw [hB] at h; cases h
    | ok r => rw [hB] at h; cases h; exact hBody _ _ hB
  · cases h

end Sys2Proof
end

