-- ==== Sys2Proof/Laws/PerInstr.lean ====
section
/-! SUPPORT. Statements made per instruction. Family `Encoding`: decoding the encoding of a well-formed
instruction gives it back, with every operand. -/

namespace Sys2Proof.Laws.Encoding

/-- A well-formed instruction is what its encoding decodes to, whatever the machine's codes are as long
as they are distinct (00_scope.md R8; R106): a SETUP row through the control URB that carries it, every
other row directly. -/
def Statement (i : Instr) : Prop :=
  ∀ q : RequestCodes, q.Distinct → WellFormed q i = true →
    (if i.isSetup then decodeRequest q (encode q i) else decode (encode q i)) = .ok i

section
variable {q : RequestCodes}

/-- A SETUP row decodes to itself when the fields of its encoding do. -/
theorem of_control {i : Instr} {x : Xfer} {r : BitVec 5} {a : Attrs} {b : Byte} {v : BitVec 16}
    (hs : i.isSetup = true) (he : encode q i = encodeControl x r a b v)
    (h : decodeFields q x (encodeFields r a b v).fields = i) :
    (if i.isSetup then decodeRequest q (encode q i) else decode (encode q i)) = .ok i := by
  rw [hs, if_pos rfl, he]
  exact congrArg Except.ok h

/-- An APDU row decodes to itself when its header does. -/
theorem of_apdu {i : Instr} {k : Tag} {d : Apdu} (hs : i.isSetup = false)
    (he : encode q i = .apdu k (encodeApdu d)) (hf : requestFits d.request = true)
    (h : decodeCommand k d = i) :
    (if i.isSetup then decodeRequest q (encode q i) else decode (encode q i)) = .ok i := by
  rw [hs, he]
  simp [decode, decodeApdu_encode d hf, Except.map, h]

end

theorem getDescriptorDevice (x : Xfer) (a : Attrs) (d : Byte) : Statement (.getDescriptorDevice x a d) := by
  intro q hq h
  refine of_control rfl rfl ?_
  simp [decodeFields, classify_device (fields_encode_recipient _ _ _ _), classifyDevice]

theorem getDescriptorConfiguration (x : Xfer) (a : Attrs) (d : Byte) : Statement (.getDescriptorConfiguration x a d) := by
  intro q hq h
  refine of_control rfl rfl ?_
  simp [decodeFields, classify_device (fields_encode_recipient _ _ _ _), classifyDevice]

theorem getDescriptorString (x : Xfer) (a : Attrs) (d : Byte) : Statement (.getDescriptorString x a d) := by
  intro q hq h
  refine of_control rfl rfl ?_
  simp [decodeFields, classify_device (fields_encode_recipient _ _ _ _), classifyDevice]

theorem fatalDeviceGetDescriptorType (x : Xfer) (a : Attrs) (t d : Byte) : Statement (.fatalDeviceGetDescriptorType x a t d) := by
  intro q hq h
  refine of_control rfl rfl ?_
  simp only [WellFormed, decide_eq_true_eq] at h
  simp [decodeFields, classify_device (fields_encode_recipient _ _ _ _), classifyDevice, h]

theorem setConfiguration (x : Xfer) (a : Attrs) (v : BitVec 16) : Statement (.setConfiguration x a v) := by
  intro q hq h
  refine of_control rfl rfl ?_
  simp [decodeFields, classify_device (fields_encode_recipient _ _ _ _), classifyDevice, hq.device]

theorem getStatus (x : Xfer) (a : Attrs) (v : BitVec 16) : Statement (.getStatus x a v) := by
  intro q hq h
  refine of_control rfl rfl ?_
  simp [decodeFields, classify_device (fields_encode_recipient _ _ _ _), classifyDevice, hq.device]

theorem fatalDeviceUnknownRequest (x : Xfer) (a : Attrs) (q : Byte) (v : BitVec 16) : Statement (.fatalDeviceUnknownRequest x a q v) := by
  intro q hq h
  refine of_control rfl rfl ?_
  simp only [WellFormed, decide_eq_true_eq] at h
  simp [decodeFields, classify_device (fields_encode_recipient _ _ _ _), classifyDevice, h]

theorem setIdle (x : Xfer) (a : Attrs) (v : BitVec 16) : Statement (.setIdle x a v) := by
  intro q hq h
  refine of_control rfl rfl ?_
  simp [decodeFields, classify_interface hq (fields_encode_recipient _ _ _ _), classifyInterface]

theorem setProtocol (x : Xfer) (a : Attrs) (v : BitVec 16) : Statement (.setProtocol x a v) := by
  intro q hq h
  refine of_control rfl rfl ?_
  simp [decodeFields, classify_interface hq (fields_encode_recipient _ _ _ _), classifyInterface, hq.interface]

theorem getDescriptorHidReport (x : Xfer) (a : Attrs) (d : Byte) : Statement (.getDescriptorHidReport x a d) := by
  intro q hq h
  refine of_control rfl rfl ?_
  simp [decodeFields, classify_interface hq (fields_encode_recipient _ _ _ _), classifyInterface, hq.interface]

theorem fatalInterfaceGetDescriptorType (x : Xfer) (a : Attrs) (t d : Byte) : Statement (.fatalInterfaceGetDescriptorType x a t d) := by
  intro q hq h
  refine of_control rfl rfl ?_
  simp only [WellFormed, decide_eq_true_eq] at h
  simp [decodeFields, classify_interface hq (fields_encode_recipient _ _ _ _), classifyInterface, hq.interface, h]

theorem fatalInterfaceUnknownRequest (x : Xfer) (a : Attrs) (q : Byte) (v : BitVec 16) : Statement (.fatalInterfaceUnknownRequest x a q v) := by
  intro q hq h
  refine of_control rfl rfl ?_
  simp only [WellFormed, decide_eq_true_eq] at h
  simp [decodeFields, classify_interface hq (fields_encode_recipient _ _ _ _), classifyInterface, h]

theorem fatalUnknownRecipient (x : Xfer) (a : Attrs) (r : BitVec 5) (q : Byte) (v : BitVec 16) :
    Statement (.fatalUnknownRecipient x a r q v) := by
  intro q hq h
  refine of_control rfl rfl ?_
  simp only [WellFormed, decide_eq_true_eq] at h
  simp [decodeFields, classify, h]

theorem urbControl (x : Xfer) (b : SetupBytes) : Statement (.urbControl x b) := fun _ _ _ => rfl

theorem urbDeliver (x : Xfer) (b : SetupBytes) : Statement (.urbDeliver x b) := fun _ _ _ => rfl

theorem urbIntake (x : Xfer) (b : SetupBytes) : Statement (.urbIntake x b) := fun _ _ _ => rfl

theorem fatalUnknownEndpoint (x : Xfer) (b : SetupBytes) (e : Nat) :
    Statement (.fatalUnknownEndpoint x b e) := by
  intro q hq h
  simp only [WellFormed, decide_eq_true_eq] at h
  simp [Instr.isSetup, encode, decode, decodeUrb, h]

theorem cancel (k : Tag) (id : UrbId) : Statement (.cancel k id) := fun _ _ _ => rfl

theorem busId (k : Tag) : Statement (.busId k) := fun _ _ _ => rfl

theorem deviceSummary (k : Tag) : Statement (.deviceSummary k) := fun _ _ _ => rfl

theorem u2fRegister (k : Tag) (cla p1 p2 : Byte) (req : Bytes) (le : BitVec 16) :
    Statement (.u2fRegister k cla p1 p2 req le) := fun _ _ h => of_apdu rfl rfl h rfl

theorem u2fAuthenticateCheckOnly (k : Tag) (cla p2 : Byte) (req : Bytes) (le : BitVec 16) :
    Statement (.u2fAuthenticateCheckOnly k cla p2 req le) := fun _ _ h => of_apdu rfl rfl h rfl

theorem u2fAuthenticateEnforce (k : Tag) (cla p2 : Byte) (req : Bytes) (le : BitVec 16) :
    Statement (.u2fAuthenticateEnforce k cla p2 req le) := fun _ _ h => of_apdu rfl rfl h rfl

theorem u2fAuthenticateSign (k : Tag) (cla p2 : Byte) (req : Bytes) (le : BitVec 16) :
    Statement (.u2fAuthenticateSign k cla p2 req le) := fun _ _ h => of_apdu rfl rfl h rfl

theorem u2fVersion (k : Tag) (cla p1 p2 : Byte) (req : Bytes) (le : BitVec 16) :
    Statement (.u2fVersion k cla p1 p2 req le) := fun _ _ h => of_apdu rfl rfl h rfl

theorem u2fAuthenticateOtherP1 (k : Tag) (cla p1 p2 : Byte) (req : Bytes) (le : BitVec 16) :
    Statement (.u2fAuthenticateOtherP1 k cla p1 p2 req le) := by
  intro q hq h
  simp only [WellFormed, decide_eq_true_eq] at h
  refine of_apdu rfl rfl h.1 ?_
  simp [decodeCommand, h]

theorem fatalUnknownIns (k : Tag) (cla ins p1 p2 : Byte) (req : Bytes) (le : BitVec 16) :
    Statement (.fatalUnknownIns k cla ins p1 p2 req le) := by
  intro q hq h
  simp only [WellFormed, decide_eq_true_eq] at h
  refine of_apdu rfl rfl h.1 ?_
  simp [decodeCommand, h]

end Sys2Proof.Laws.Encoding
end

