-- ==== Sys2Proof/Certificates/Slice0/Obligations.lean ====
section
/-! DEFINITION. The statements for the provers, each a Prop. What the spec says an instruction, an agent
or the machine does, rule by rule; a docstring cites the rules. -/

open Sys2Proof Sys2Proof.Machine

/-! ### Encodings -/

/-- 30_encoding.md R100, R101, R103: the fields of 8 setup bytes, little-endian, and their sub-fields. -/
def Obligations.SetupFieldsOfTheBytes : Prop :=
  ∀ b : SetupBytes,
    b.fields.bmRequestType = b.b0 ∧ b.fields.bRequest = b.b1 ∧
    b.fields.wValue.toNat = b.b2.toNat + 256 * b.b3.toNat ∧
    b.fields.wIndex.toNat = b.b4.toNat + 256 * b.b5.toNat ∧
    b.fields.wLength.toNat = b.b6.toNat + 256 * b.b7.toNat ∧
    b.fields.recipient.toNat = b.b0.toNat % 32 ∧
    b.fields.kind.toNat = b.b0.toNat / 32 % 4 ∧
    b.fields.direction.toNat = b.b0.toNat / 128 ∧
    b.fields.descType = b.b3 ∧ b.fields.descIndex = b.b2

/-- 30_encoding.md R106: which packets each SETUP row takes, as one condition per row,
for any distinct codes (00_scope.md R8). -/
def Obligations.ClassifyTakesExactlyTheMap : Prop :=
  ∀ (q : RequestCodes) (p : Setup), q.Distinct →
    (classify q p = .getDescriptorDevice ↔ p.recipient = q.recDevice ∧
      p.bRequest = q.reqGetDescriptor ∧ p.descType = Config.descDevice) ∧
    (classify q p = .getDescriptorConfiguration ↔ p.recipient = q.recDevice ∧
      p.bRequest = q.reqGetDescriptor ∧ p.descType = Config.descConfiguration) ∧
    (classify q p = .getDescriptorString ↔ p.recipient = q.recDevice ∧
      p.bRequest = q.reqGetDescriptor ∧ p.descType = Config.descString) ∧
    (classify q p = .fatalDeviceGetDescriptorType ↔ p.recipient = q.recDevice ∧
      p.bRequest = q.reqGetDescriptor ∧ p.descType ≠ Config.descDevice ∧
      p.descType ≠ Config.descConfiguration ∧ p.descType ≠ Config.descString) ∧
    (classify q p = .setConfiguration ↔ p.recipient = q.recDevice ∧
      p.bRequest = q.reqSetConfiguration) ∧
    (classify q p = .getStatus ↔ p.recipient = q.recDevice ∧
      p.bRequest = q.reqGetStatus) ∧
    (classify q p = .fatalDeviceUnknownRequest ↔ p.recipient = q.recDevice ∧
      p.bRequest ≠ q.reqGetDescriptor ∧ p.bRequest ≠ q.reqSetConfiguration ∧
      p.bRequest ≠ q.reqGetStatus) ∧
    (classify q p = .setIdle ↔ p.recipient = q.recInterface ∧
      p.bRequest = q.reqSetIdle) ∧
    (classify q p = .setProtocol ↔ p.recipient = q.recInterface ∧
      p.bRequest = q.reqSetProtocol) ∧
    (classify q p = .getDescriptorHidReport ↔ p.recipient = q.recInterface ∧
      p.bRequest = q.reqGetDescriptor ∧ p.descType = Config.descHidReport) ∧
    (classify q p = .fatalInterfaceGetDescriptorType ↔ p.recipient = q.recInterface ∧
      p.bRequest = q.reqGetDescriptor ∧ p.descType ≠ Config.descHidReport) ∧
    (classify q p = .fatalInterfaceUnknownRequest ↔ p.recipient = q.recInterface ∧
      p.bRequest ≠ q.reqSetIdle ∧ p.bRequest ≠ q.reqSetProtocol ∧
      p.bRequest ≠ q.reqGetDescriptor) ∧
    (classify q p = .fatalUnknownRecipient ↔
      p.recipient ≠ q.recDevice ∧ p.recipient ≠ q.recInterface)

/-- Decoding the encoding of any well-formed instruction gives it back, with every operand at every
value its encoding admits, and with any distinct request and recipient codes (30_encoding.md R100 to
R112; 00_scope.md R8). -/
def Obligations.DecodeOfEncodeIsTheInstruction : Prop := ∀ i : Instr, Laws.Encoding.Statement i

/-- No bit of a SETUP packet is dropped: any 8 bytes are the encoding of what they decode to, whatever
the codes are (30_encoding.md R100, R101; 00_scope.md R8). -/
def Obligations.SetupBytesReencodeExactly : Prop :=
  ∀ (q : RequestCodes) (x : Xfer) (b : SetupBytes),
    encode q (decodeSetup q x b) = .handleMessage x Config.epCtrl b

/-- What the decoder answers is well-formed, and so is the request a control URB carries, whatever the
codes are (30_encoding.md R106, R108, R111, R112; 00_scope.md R8). -/
def Obligations.DecodedInstructionsAreWellFormed : Prop :=
  ∀ (q : RequestCodes) (c : PortCall) (i : Instr), decode c = .ok i →
    WellFormed q i = true ∧ WellFormed q (i.request q) = true

/-- 30_encoding.md R108: a `handle_message` is decoded by its endpoint alone, a control URB's setup
bytes carry the request, and on any other endpoint they are not read. -/
def Obligations.EndpointAloneSelectsTheUrbRow : Prop :=
  ∀ (x : Xfer) (b : SetupBytes) (e : Nat),
    (e = 0 → decode (.handleMessage x e b) = .ok (.urbControl x b)) ∧
    (e = 1 → decode (.handleMessage x e b) = .ok (.urbDeliver x b)) ∧
    (e = 2 → decode (.handleMessage x e b) = .ok (.urbIntake x b)) ∧
    (3 ≤ e → decode (.handleMessage x e b) = .ok (.fatalUnknownEndpoint x b e)) ∧
    (∀ q : RequestCodes, (Instr.urbControl x b).request q = decodeSetup q x b) ∧
    ∀ (c : SetupBytes) (s : State), exec (.urbDeliver x b) s = exec (.urbDeliver x c) s ∧
      exec (.urbIntake x b) s = exec (.urbIntake x c) s ∧
      exec (.fatalUnknownEndpoint x b e) s = exec (.fatalUnknownEndpoint x c e) s

/-- 43_apdu_framing.md R211 to R214, R217: the header-only form, the Le-only form, the data form, and
the form with data and Le, after which bytes are ignored. -/
def Obligations.ApduBodyFormsDecode : Prop :=
  ∀ cla ins p1 p2 : Byte,
    decodeApdu [cla, ins, p1, p2] = .ok ⟨cla, ins, p1, p2, [], 0⟩ ∧
    (∀ le : BitVec 16,
      decodeApdu ([cla, ins, p1, p2, 0x00] ++ u16be le) = .ok ⟨cla, ins, p1, p2, [], le⟩) ∧
    (∀ data : Bytes, 1 ≤ data.length → data.length ≤ 65535 →
      decodeApdu ([cla, ins, p1, p2, 0x00] ++ u16be (BitVec.ofNat 16 data.length) ++ data) =
        .ok ⟨cla, ins, p1, p2, data, 0⟩) ∧
    (∀ (data tail : Bytes) (le : BitVec 16), data.length ≤ 65535 →
      decodeApdu ([cla, ins, p1, p2, 0x00] ++ u16be (BitVec.ofNat 16 data.length) ++ data ++
        u16be le ++ tail) = .ok ⟨cla, ins, p1, p2, data, le⟩)

/-- 43_apdu_framing.md R215, R216: exactly the APDUs with a missing marker or a cut field are malformed;
`L1` is the 16-bit number at offset 5. -/
def Obligations.MalformedApdusExactly : Prop :=
  ∀ a : Bytes,
    (∃ e, decodeApdu a = .error e) ↔
      a.length < 4 ∨
      (5 ≤ a.length ∧ a.getD 4 0 ≠ 0x00) ∨
      (5 ≤ a.length ∧ a.length < 7) ∨
      (8 ≤ a.length ∧ a.length < 7 + (rd16be (a.getD 5 0) (a.getD 6 0)).toNat) ∨
      (8 ≤ a.length ∧ a.length = 8 + (rd16be (a.getD 5 0) (a.getD 6 0)).toNat)

/-- Packets and words written from 30_encoding.md R100, R101, R106, R108, R109, R111, R112, one or two of
each format. GET_DESCRIPTOR(STRING, 2) and SET_IDLE name their request and recipient codes and hold for
any distinct ones (00_scope.md R8, "must name the parameter, not the numeral"); as words of
spec/opcode_table.json, which uses the default codes (PRESUMED, log 12), they name those. The choice of a
word's format is the model's (log 15). -/
def Obligations.TableWordsDecode : Prop :=
  (∀ (q : RequestCodes) (x : Xfer), q.Distinct →
    decodeRequest q (.handleMessage x 0
      ⟨(0b100 : BitVec 3) ++ q.recDevice, q.reqGetDescriptor, 0x02, 0x03, 0, 0, 0, 0⟩) =
        .ok (.getDescriptorString x ⟨0, 1, 0, 0⟩ 0x02) ∧
    decodeRequest q (.handleMessage x 0
      ⟨(0b001 : BitVec 3) ++ q.recInterface, q.reqSetIdle, 0, 0, 0, 0, 0, 0⟩) =
        .ok (.setIdle x ⟨1, 0, 0, 0⟩ 0x0000)) ∧
  decodeTableWord 32 (0x03020080 + 0x100 * Config.defaultCodes.reqGetDescriptor.toNat +
      Config.defaultCodes.recDevice.toNat) =
    some (.getDescriptorString ⟨0, ⟨0, 64⟩⟩ ⟨0, 1, 0, 0⟩ 0x02) ∧
  decodeTableWord 16 (0x20 + 0x100 * Config.defaultCodes.reqSetIdle.toNat +
      Config.defaultCodes.recInterface.toNat) =
    some (.setIdle ⟨0, ⟨0, 64⟩⟩ ⟨1, 0, 0, 0⟩ 0x0000) ∧
  decodeTableWord 32 0x00000001 = some (.urbDeliver ⟨0, ⟨0, 64⟩⟩ ⟨0, 0, 0, 0, 0, 0, 0, 0⟩) ∧
  decodeTableWord 24 0x020700 = some (.u2fAuthenticateCheckOnly 0 0x00 0x00 [] 0) ∧
  decodeTableWord 24 0x030000 = some (.u2fVersion 0 0x00 0x00 0x00 [] 0)

/-! ### Descriptor ROM -/

/-- 20_memory.md R52, R59: the device descriptor and the report map. -/
def Obligations.DeviceDescriptorAndReportMapImages : Prop :=
  Rom.device = [0x12, 0x01, 0x10, 0x01, 0x00, 0x00, 0x00, 0x40, 0x00, 0x00, 0x00, 0x00, 0x01, 0x00,
    0x01, 0x02, 0x03, 0x01] ∧ Rom.device.length = 18 ∧
    Rom.reportMap = [0x06, 0xD0, 0xF1, 0x09, 0x01, 0xA1, 0x01, 0x09, 0x20, 0x14, 0x25, 0xFF, 0x75, 0x08,
    0x95, 0x40, 0x81, 0x02, 0x09, 0x21, 0x14, 0x25, 0xFF, 0x75, 0x08, 0x95, 0x40, 0x91, 0x02, 0xC0] ∧
    Rom.reportMap.length = 30

/-- 20_memory.md R53, R58: the configuration block for every value of its open parameters, 41 bytes with
wTotalLength 41. That the state after reset has the defaults of 00_scope.md R8, the codes among them, is
the model's choice (log 12, log 13); those codes are distinct. -/
def Obligations.ConfigurationBlockImage : Prop :=
  (∀ p : DescriptorParams,
    Rom.configurationBlock p =
        [0x09, 0x02, 0x29, 0x00, 0x01, p.cfgValue, p.cfgString, p.cfgAttributes, p.cfgMaxPower] ++
        [0x09, 0x04, 0x00, 0x00, 0x02, 0x03, 0x00, 0x00, 0x05] ++
        ([0x09, 0x21, 0x01, 0x01, 0x00, 0x01, 0x22] ++ u16le p.hidReportLenField) ++
        [0x07, 0x05, p.epInAddress, 0x03, 0x40, 0x00, 0xFF] ++
        [0x07, 0x05, p.epOutAddress, 0x03, 0x40, 0x00, 0xFF] ∧
      (Rom.configurationBlock p).length = 41) ∧
  State.reset.params = {
    codes := {
      reqGetStatus := 0x00, reqGetDescriptor := 0x06, reqSetConfiguration := 0x09
      reqSetIdle := 0x0A, reqSetProtocol := 0x0B
      recDevice := 0, recInterface := 1, recEndpoint := 2 }
    descriptors := {
      cfgValue := 0x01, cfgString := 0x04, cfgAttributes := 0xC0, cfgMaxPower := 0x00
      hidReportLenField := 34, epInAddress := 0x81, epOutAddress := 0x02 } } ∧
  State.reset.params.codes.Distinct

/-- 20_memory.md R61, R62: the six string images. -/
def Obligations.StringImages : Prop :=
  Rom.string 0 = [0x04, 0x03, 0x09, 0x04] ∧
    Rom.string 1 = [0x16, 0x03, 0x4E, 0x00, 0x6F, 0x00, 0x20, 0x00, 0x43, 0x00, 0x6F, 0x00, 0x6D, 0x00,
      0x70, 0x00, 0x61, 0x00, 0x6E, 0x00, 0x79, 0x00] ∧
    Rom.string 2 = [0x1A, 0x03, 0x56, 0x00, 0x69, 0x00, 0x72, 0x00, 0x74, 0x00, 0x75, 0x00, 0x61, 0x00,
      0x6C, 0x00, 0x20, 0x00, 0x46, 0x00, 0x49, 0x00, 0x44, 0x00, 0x4F, 0x00] ∧
    Rom.string 3 = [0x22, 0x03, 0x4E, 0x00, 0x6F, 0x00, 0x20, 0x00, 0x53, 0x00, 0x65, 0x00, 0x72, 0x00,
      0x69, 0x00, 0x61, 0x00, 0x6C, 0x00, 0x20, 0x00, 0x4E, 0x00, 0x75, 0x00, 0x6D, 0x00, 0x62, 0x00,
      0x65, 0x00, 0x72, 0x00] ∧
    Rom.string 4 = [0x12, 0x03, 0x53, 0x00, 0x74, 0x00, 0x72, 0x00, 0x69, 0x00, 0x6E, 0x00, 0x67, 0x00,
      0x20, 0x00, 0x34, 0x00] ∧
    Rom.string 5 = [0x24, 0x03, 0x44, 0x00, 0x65, 0x00, 0x66, 0x00, 0x61, 0x00, 0x75, 0x00, 0x6C, 0x00,
      0x74, 0x00, 0x20, 0x00, 0x49, 0x00, 0x6E, 0x00, 0x74, 0x00, 0x65, 0x00, 0x72, 0x00, 0x66, 0x00,
      0x61, 0x00, 0x63, 0x00, 0x65, 0x00]

/-! ### EP0 control requests -/

/-- 41_control_requests.md R153, R154, R163 with R182: the three fixed descriptor requests, by their
encoding at any distinct codes (00_scope.md R8), reply with their image, the configuration block's at the
machine's parameters (20_memory.md R53), and nothing but the reply happens. -/
def Obligations.DescriptorRequestsReplyTheirImage : Prop :=
  (∀ (q : RequestCodes) (x : Xfer) (b : SetupBytes), q.Distinct → b.b1 = q.reqGetDescriptor →
    (b.fields.recipient = q.recDevice →
      (b.b3 = Config.descDevice →
        decodeSetup q x b = .getDescriptorDevice x b.fields.attrs b.b2) ∧
      (b.b3 = Config.descConfiguration →
        decodeSetup q x b = .getDescriptorConfiguration x b.fields.attrs b.b2)) ∧
    (b.fields.recipient = q.recInterface → b.b3 = Config.descHidReport →
      decodeSetup q x b = .getDescriptorHidReport x b.fields.attrs b.b2)) ∧
  ∀ (x : Xfer) (a : Attrs) (d : Byte) (s : State), s.fatal = none → s.mem.wf →
    (∃ t, exec (.getDescriptorDevice x a d) s = .next t ∧ Replied s t x Rom.device) ∧
    (∃ t, exec (.getDescriptorConfiguration x a d) s = .next t ∧
      Replied s t x (Rom.configurationBlock s.params.descriptors)) ∧
    (∃ t, exec (.getDescriptorHidReport x a d) s = .next t ∧ Replied s t x Rom.reportMap)

/-- 41_control_requests.md R155: the request by its encoding at any codes (00_scope.md R8); indices 0
to 5 reply with the string's image, 6 and above are fatal (which ends the latches of suspended U2F calls,
10_state.md R25). -/
def Obligations.StringRequestRepliesOrIsFatal : Prop :=
  (∀ (q : RequestCodes) (x : Xfer) (b : SetupBytes), b.fields.recipient = q.recDevice →
    b.b1 = q.reqGetDescriptor → b.b3 = Config.descString →
    decodeSetup q x b = .getDescriptorString x b.fields.attrs b.b2) ∧
  ∀ (x : Xfer) (a : Attrs) (d : Byte) (s : State), s.fatal = none → s.mem.wf →
    (d.toNat ≤ 5 → ∃ t, exec (.getDescriptorString x a d) s = .next t ∧
      Replied s t x (Rom.string d.toNat)) ∧
    (5 < d.toNat → exec (.getDescriptorString x a d) s = .next { s with
      fatal := some .invalidStringIndex
      setup := none
      agents := s.agents.filter (fun w => !w.isU2f)
      trace := s.trace ++ [.fatal .invalidStringIndex] })

/-- 41_control_requests.md R157, R158, R161, R162: by their encoding at any distinct codes
(00_scope.md R8), the no-ops write nothing and finish, GET_STATUS replies with the one byte 0x01; no
configuration, idle rate or protocol is latched. -/
def Obligations.NoOpRequestsFinishAndStatusIsOneByte : Prop :=
  (∀ (q : RequestCodes) (x : Xfer) (b : SetupBytes), q.Distinct →
    (b.fields.recipient = q.recDevice →
      (b.b1 = q.reqSetConfiguration →
        decodeSetup q x b = .setConfiguration x b.fields.attrs b.fields.wValue) ∧
      (b.b1 = q.reqGetStatus →
        decodeSetup q x b = .getStatus x b.fields.attrs b.fields.wValue)) ∧
    (b.fields.recipient = q.recInterface →
      (b.b1 = q.reqSetIdle →
        decodeSetup q x b = .setIdle x b.fields.attrs b.fields.wValue) ∧
      (b.b1 = q.reqSetProtocol →
        decodeSetup q x b = .setProtocol x b.fields.attrs b.fields.wValue))) ∧
  ∀ (x : Xfer) (a : Attrs) (v : BitVec 16) (s : State), s.fatal = none → s.mem.wf →
    (∃ t, exec (.setConfiguration x a v) s = .next t ∧ Replied s t x []) ∧
    (∃ t, exec (.setIdle x a v) s = .next t ∧ Replied s t x []) ∧
    (∃ t, exec (.setProtocol x a v) s = .next t ∧ Replied s t x []) ∧
    (∃ t, exec (.getStatus x a v) s = .next t ∧ Replied s t x [0x01])

/-- 41_control_requests.md R156, R159, R164, R165, R166 with 60_exceptions.md R272: by their encoding at
any distinct codes (00_scope.md R8), REC_ENDPOINT among the unknown recipients, the fatal rows set FATAL,
record the event, end the latches of suspended U2F calls (10_state.md R25) and do nothing else. -/
def Obligations.FatalControlRowsRaise : Prop :=
  (∀ (q : RequestCodes) (x : Xfer) (b : SetupBytes), q.Distinct →
    (b.fields.recipient = q.recDevice →
      (b.b1 = q.reqGetDescriptor →
        b.b3 ∉ [Config.descDevice, Config.descConfiguration, Config.descString] →
        decodeSetup q x b = .fatalDeviceGetDescriptorType x b.fields.attrs b.b3 b.b2) ∧
      (b.b1 ∉ [q.reqGetStatus, q.reqGetDescriptor, q.reqSetConfiguration] →
        decodeSetup q x b = .fatalDeviceUnknownRequest x b.fields.attrs b.b1 b.fields.wValue)) ∧
    (b.fields.recipient = q.recInterface →
      (b.b1 = q.reqGetDescriptor → b.b3 ≠ Config.descHidReport →
        decodeSetup q x b = .fatalInterfaceGetDescriptorType x b.fields.attrs b.b3 b.b2) ∧
      (b.b1 ∉ [q.reqGetDescriptor, q.reqSetIdle, q.reqSetProtocol] →
        decodeSetup q x b = .fatalInterfaceUnknownRequest x b.fields.attrs b.b1 b.fields.wValue)) ∧
    (b.fields.recipient = q.recEndpoint ∨ b.fields.recipient ∉ [q.recDevice, q.recInterface] →
      decodeSetup q x b =
        .fatalUnknownRecipient x b.fields.attrs b.fields.recipient b.b1 b.fields.wValue)) ∧
  ∀ (x : Xfer) (a : Attrs) (t d n : Byte) (v : BitVec 16) (r : BitVec 5) (s : State),
    s.fatal = none →
    exec (.fatalDeviceGetDescriptorType x a t d) s = .next { s with
      fatal := some .invalidDescriptorType
      setup := none
      agents := s.agents.filter (fun w => !w.isU2f)
      trace := s.trace ++ [.fatal .invalidDescriptorType] } ∧
    exec (.fatalInterfaceGetDescriptorType x a t d) s = .next { s with
      fatal := some .invalidDescriptorType
      setup := none
      agents := s.agents.filter (fun w => !w.isU2f)
      trace := s.trace ++ [.fatal .invalidDescriptorType] } ∧
    exec (.fatalDeviceUnknownRequest x a n v) s = .next { s with
      fatal := some .unknownRequest
      setup := none
      agents := s.agents.filter (fun w => !w.isU2f)
      trace := s.trace ++ [.fatal .unknownRequest] } ∧
    exec (.fatalInterfaceUnknownRequest x a n v) s = .next { s with
      fatal := some .unknownRequest
      setup := none
      agents := s.agents.filter (fun w => !w.isU2f)
      trace := s.trace ++ [.fatal .unknownRequest] } ∧
    exec (.fatalUnknownRecipient x a r n v) s = .next { s with
      fatal := some .unknownRecipient
      setup := none
      agents := s.agents.filter (fun w => !w.isU2f)
      trace := s.trace ++ [.fatal .unknownRecipient] }

/-- 42_endpoint_transfers.md R181: a control URB does, in one step, what the SETUP row of its setup
bytes does at the machine's codes (00_scope.md R8), in every state. -/
def Obligations.ControlUrbRunsItsRequest : Prop :=
  ∀ (x : Xfer) (b : SetupBytes) (s : State),
    exec (.urbControl x b) s = exec (decodeSetup s.params.codes x b) s

/-- 42_endpoint_transfers.md R181 with 60_exceptions.md R276: a control URB completes on every packet,
with the reply or the fatal error that the check order of R276 gives, at the machine's codes and
descriptor parameters (00_scope.md R8). -/
def Obligations.ControlUrbCompletesInCheckOrder : Prop :=
  ∀ (x : Xfer) (b : SetupBytes) (s : State), s.fatal = none → s.mem.wf →
    ∃ t, exec (.urbControl x b) s = .next t ∧
      (∀ data, controlOutcome s.params b.fields = .ok data → Replied s t x data) ∧
      (∀ r, controlOutcome s.params b.fields = .error r → t = { s with
        fatal := some r
        setup := none
        agents := s.agents.filter (fun w => !w.isU2f)
        trace := s.trace ++ [.fatal r] })

/-- 30_encoding.md R107: only recipient, bRequest, descType and, for STRING, descIndex are read. Two
packets that agree on them have the same effect, whatever kind, direction, wIndex and wLength are. -/
def Obligations.UnconsultedSetupFieldsChangeNothing : Prop :=
  ∀ (x : Xfer) (b c : SetupBytes) (s : State),
    b.fields.recipient = c.fields.recipient → b.fields.bRequest = c.fields.bRequest →
    b.fields.descType = c.fields.descType →
    (classify s.params.codes b.fields = .getDescriptorString →
      b.fields.descIndex = c.fields.descIndex) →
    exec (.urbControl x b) s = exec (.urbControl x c) s

/-! ### Endpoint transfers, cancellation, attach record -/

/-- 42_endpoint_transfers.md R183: an EP1 URB is queued at the tail; nothing is written or finished. -/
def Obligations.DeliveryIsQueuedAtTheTail : Prop :=
  ∀ (x : Xfer) (b : SetupBytes) (s : State), s.fatal = none →
    exec (.urbDeliver x b) s = .next { s with dlvq := s.dlvq ++ [⟨x, .queued⟩] }

/-- 42_endpoint_transfers.md R184: when scheduled, a QUEUED head with no entry WAITING takes the lock and
calls `H.get_response(id, 1000)`; while the head is WAITING no delivery acquires. -/
def Obligations.OnlyTheHeadAcquiresTheLock : Prop :=
  ∀ (s : State) (x : Xfer) (rest : List DlvEntry) (more : List Input),
    s.fatal = none → s.inputs = .acquire :: more →
    (s.dlvq = ⟨x, .queued⟩ :: rest → (∀ e ∈ rest, e.phase = .queued) →
      step s = .next { s with
        dlvq := ⟨x, .waiting s.fresh⟩ :: rest
        fresh := s.fresh + 1
        trace := s.trace ++ [.callH s.fresh (.getResponse x.id 1000)]
        inputs := more }) ∧
    (s.lockHeld = true → step s = .next { s with inputs := more }) ∧
    (s.dlvq = [] → step s = .next { s with inputs := more })

/-- 42_endpoint_transfers.md R185: the WAITING head's answer is copied, its FINISH fires after the write,
it leaves the queue, and nothing else changes. -/
def Obligations.DeliveryCompletesWithData : Prop :=
  ∀ (s : State) (x : Xfer) (c : Tag) (data : Bytes) (rest : List DlvEntry) (more : List Input),
    s.fatal = none → s.mem.wf → s.dlvq = ⟨x, .waiting c⟩ :: rest →
    s.inputs = .answer c (.response (some data)) :: more →
    ∃ t, step s = .next t ∧ Replied
      { s with
        dlvq := rest
        setup := none
        trace := s.trace ++ [.answered c (.response (some data))]
        inputs := more }
      { t with setup := none } x data ∧ t.setup = s.setup

/-- 42_endpoint_transfers.md R186: on `none` the head leaves the queue with no write and no FINISH. -/
def Obligations.DeliveryTimesOutSilently : Prop :=
  ∀ (s : State) (x : Xfer) (c : Tag) (rest : List DlvEntry) (more : List Input),
    s.fatal = none → s.dlvq = ⟨x, .waiting c⟩ :: rest →
    s.inputs = .answer c (.response none) :: more →
    step s = .next { s with
      dlvq := rest
      trace := s.trace ++ [.answered c (.response none)]
      inputs := more }

/-- 42_endpoint_transfers.md R190, R189, 60_exceptions.md R273 and 70_reset_and_hazards.md R301: an answer to
a call nobody waits for any more, and any answer while FATAL holds, is discarded: no write, no FINISH, no
response. The trace lists it, since it lists each call and its answer (10_state.md R34). That an answer is
one input, and that one no port could give (to a call never made, or a second one) is listed too, is the
model's choice (log 1, log 18). -/
def Obligations.AbandonedAnswersAreDiscarded : Prop :=
  ∀ (s : State) (c : Tag) (a : Answer) (more : List Input),
    s.inputs = .answer c a :: more →
    s.fatal ≠ none ∨ ((∀ e ∈ s.dlvq, e.phase ≠ .waiting c) ∧ s.waitingFor c = none) →
    step s = .next { s with trace := s.trace ++ [.answered c a], inputs := more }

/-- 42_endpoint_transfers.md R187: intake hands the buffer to H unread, and when H returns FINISH fires
with nothing written; the delivery queue plays no part. -/
def Obligations.IntakeHandsOverThenFinishes : Prop :=
  (∀ (x : Xfer) (b : SetupBytes) (s : State), s.fatal = none →
    exec (.urbIntake x b) s = .next { s with
      agents := s.agents ++ [⟨s.fresh, .intake x⟩]
      fresh := s.fresh + 1
      trace := s.trace ++ [.callH s.fresh (.handleMessage x.buf (s.bufBytes x.buf))] }) ∧
  ∀ (s : State) (x : Xfer) (c : Tag) (more : List Input),
    s.fatal = none → s.waitingFor c = some (.intake x) → s.inputs = .answer c .handled :: more →
    step s = .next { s with
      agents := s.agents.filter (fun w => w.call ≠ c)
      trace := s.trace ++ [.answered c .handled, .finish x 0 (s.bufBytes x.buf)]
      inputs := more }

/-- 42_endpoint_transfers.md R189: a cancellation asks H; on `true` every entry with the id leaves the
queue without write or FINISH, on `false` nothing changes; H's answer is returned. -/
def Obligations.CancellationAsksThenRemoves : Prop :=
  (∀ (k : Tag) (id : UrbId) (s : State), s.fatal = none →
    decode (.removeWaitingRequest k id) = .ok (.cancel k id) ∧
    exec (.cancel k id) s = .next { s with
      agents := s.agents ++ [⟨s.fresh, .cancelling k id⟩]
      fresh := s.fresh + 1
      trace := s.trace ++ [.callH s.fresh (.removeWaitingRequest id)] }) ∧
  ∀ (s : State) (k c : Tag) (id : UrbId) (b : Bool) (more : List Input),
    s.fatal = none → s.waitingFor c = some (.cancelling k id) →
    s.inputs = .answer c (.removed b) :: more →
    step s = .next { s with
      dlvq := if b then s.dlvq.filter (fun e => e.xfer.id ≠ id) else s.dlvq
      agents := s.agents.filter (fun w => w.call ≠ c)
      trace := s.trace ++ [.answered c (.removed b), .returned k (.flag b)]
      inputs := more }

/-- 42_endpoint_transfers.md R191: `bus_id` returns "2-2" and `device_summary` the attach record, field
by field. -/
def Obligations.AttachQueriesReturnTheRecord : Prop :=
  (∀ (k : Tag) (s : State), s.fatal = none →
    decode (.busId k) = .ok (.busId k) ∧ decode (.deviceSummary k) = .ok (.deviceSummary k) ∧
    exec (.busId k) s = .next { s with
      trace := s.trace ++ [.returned k (.text ['2', '-', '2'])] } ∧
    exec (.deviceSummary k) s = .next { s with
      trace := s.trace ++ [.returned k (.summary (attachRecord s.params.descriptors))] }) ∧
  ∀ p : DescriptorParams, attachRecord p = {
    path := ['/', 'd', 'e', 'v', 'i', 'c', 'e', '/', '0'], busid := ['2', '-', '2']
    busnum := 2, devnum := 2, speed := 2
    idVendor := 0x0000, idProduct := 0x0000, bcdDevice := 0x0001
    bDeviceClass := 0, bDeviceSubClass := 0, bDeviceProtocol := 0
    bConfigurationValue := p.cfgValue, bNumConfigurations := 1, bNumInterfaces := 1
    bInterfaceClass := 3, bInterfaceSubClass := 0, bInterfaceProtocol := 0 }

/-! ### U2F -/

/-- 44_u2f_commands.md R236: INS 0x03 is VERSION, which responds its eight bytes whatever header, data
and Le are. -/
def Obligations.VersionResponds : Prop :=
  (∀ (k : Tag) (cla p1 p2 : Byte) (req : Bytes) (le : BitVec 16),
    decodeCommand k ⟨cla, 0x03, p1, p2, req, le⟩ = .u2fVersion k cla p1 p2 req le) ∧
  ∀ (k : Tag) (cla p1 p2 : Byte) (req : Bytes) (le : BitVec 16) (s : State), s.fatal = none →
    exec (.u2fVersion k cla p1 p2 req le) s = .next { s with
      trace := s.trace ++
        [.respond k [0x55, 0x32, 0x46, 0x5F, 0x56, 0x32, 0x90, 0x00]] }

/-- 42_endpoint_transfers.md R188 and 44_u2f_commands.md R246 with 60_exceptions.md R272: any other
endpoint and any other INS are fatal; nothing is finished or responded, and the latches of suspended
U2F calls end (10_state.md R25). -/
def Obligations.UnknownEndpointAndUnknownInsAreFatal : Prop :=
  (∀ (x : Xfer) (b : SetupBytes) (e : Nat), e ∉ [0, 1, 2] →
    decode (.handleMessage x e b) = .ok (.fatalUnknownEndpoint x b e)) ∧
  (∀ (k : Tag) (cla ins p1 p2 : Byte) (req : Bytes) (le : BitVec 16),
    ins ∉ [0x01, 0x02, 0x03] →
    decodeCommand k ⟨cla, ins, p1, p2, req, le⟩ = .fatalUnknownIns k cla ins p1 p2 req le) ∧
  ∀ s : State, s.fatal = none →
    (∀ (x : Xfer) (b : SetupBytes) (e : Nat),
      exec (.fatalUnknownEndpoint x b e) s = .next { s with
        fatal := some .unknownEndpoint
        setup := none
        agents := s.agents.filter (fun w => !w.isU2f)
        trace := s.trace ++ [.fatal .unknownEndpoint] }) ∧
    ∀ (k : Tag) (cla ins p1 p2 : Byte) (req : Bytes) (le : BitVec 16),
      exec (.fatalUnknownIns k cla ins p1 p2 req le) s = .next { s with
        fatal := some .unknownIns
        setup := none
        agents := s.agents.filter (fun w => !w.isU2f)
        trace := s.trace ++ [.fatal .unknownIns] }

/-- 43_apdu_framing.md R219: a malformed APDU responds 6A80, whatever its INS, and does nothing else. -/
def Obligations.MalformedApduResponds6A80 : Prop :=
  ∀ (s : State) (a : Bytes) (e : DecodeError) (more : List Input),
    s.fatal = none → s.inputs = .call (.apdu a) :: more → decodeApdu a = .error e →
    step s = .next { s with
      fresh := s.fresh + 1
      trace := s.trace ++ [.call (.apdu s.fresh a), .respond s.fresh [0x6A, 0x80]]
      inputs := more }

/-- 44_u2f_commands.md R237 steps 1 and 2: a request of another length than 64 responds 6A80 with no
port-C call; one of 64 bytes asks for a key, its challenge and application latched. -/
def Obligations.RegisterChecksLengthThenAsksForAKey : Prop :=
  ∀ (k : Tag) (cla p1 p2 : Byte) (req : Bytes) (le : BitVec 16) (s : State), s.fatal = none →
    (req.length ≠ 64 → exec (.u2fRegister k cla p1 p2 req le) s = .next { s with
      trace := s.trace ++ [.respond k [0x6A, 0x80]] }) ∧
    (req.length = 64 → exec (.u2fRegister k cla p1 p2 req le) s = .next { s with
      agents := s.agents ++ [⟨s.fresh, .u2f k ⟨cla, 0x01, p1, p2, req, le⟩
        (.newKey ⟨req.take 32, req.drop 32⟩)⟩]
      fresh := s.fresh + 1
      trace := s.trace ++ [.callC s.fresh .newPrivateKey] })

/-- 44_u2f_commands.md R237 steps 2 to 6, for any units: no key is fatal KEY_PARSE; else the handle
`PRIVENC(kp)`, application is sealed under SK with the next draw; a refused sealing is fatal
CRYPTO_INVALID_KEY; else the user is asked with the plain handle. -/
def Obligations.RegisterSealsThenAsksForApproval : Prop :=
  ∀ (U : Units) (s : State) (c k : Tag) (d : Apdu) (ch : Challenge) (okp : Option KeyPair),
    s.fatal = none → s.waitingFor c = some (.u2f k d (.newKey ch)) →
    s.resume U c (.keyPair okp) =
      match okp with
      | none => { s with
          fatal := some .keyParse
          setup := none
          agents := (s.agents.filter (fun w => w.call ≠ c)).filter (fun w => !w.isU2f)
          trace := s.trace ++ [.answered c (.keyPair none), .fatal .keyParse] }
      | some kp =>
        match U.sealBox s.sk ⟨U.privEnc kp, ch.application⟩ (Config.draw s.draws) with
        | none => { s with
            fatal := some .cryptoInvalidKey
            setup := none
            agents := (s.agents.filter (fun w => w.call ≠ c)).filter (fun w => !w.isU2f)
            draws := s.draws + 1
            trace := s.trace ++ [.answered c (.keyPair (some kp)), .fatal .cryptoInvalidKey] }
        | some handle => { s with
            agents := s.agents.filter (fun w => w.call ≠ c) ++ [⟨s.fresh, .u2f k d
              (.approveRegistration ch kp ⟨U.privEnc kp, ch.application⟩ handle)⟩]
            fresh := s.fresh + 1
            draws := s.draws + 1
            trace := s.trace ++ [.answered c (.keyPair (some kp)),
              .callC s.fresh (.approveRegistration ⟨U.privEnc kp, ch.application⟩)] }

/-- 44_u2f_commands.md R237 steps 6 and 7: a denial responds exactly 6985, with no certificate and no
signature; an approval asks for the certificate. -/
def Obligations.RegisterDeniedOrCertified : Prop :=
  ∀ (U : Units) (s : State) (c k : Tag) (d : Apdu) (ch : Challenge) (kp : KeyPair)
    (kh : KeyHandle) (handle : Bytes) (ok : Bool),
    s.fatal = none → s.waitingFor c = some (.u2f k d (.approveRegistration ch kp kh handle)) →
    s.resume U c (.registrationApproved ok) =
      if ok then { s with
        agents := s.agents.filter (fun w => w.call ≠ c) ++
          [⟨s.fresh, .u2f k d (.createCertificate ch kp handle)⟩]
        fresh := s.fresh + 1
        trace := s.trace ++ [.answered c (.registrationApproved ok),
          .callC s.fresh (.createAttestationCertificate kp)] }
      else { s with
        agents := s.agents.filter (fun w => w.call ≠ c)
        trace := s.trace ++ [.answered c (.registrationApproved ok), .respond k [0x69, 0x85]] }

/-- 44_u2f_commands.md R237 steps 7 to 10, for any units: no certificate and a failed signature are fatal
CRYPTO_INVALID_KEY; then a handle over 255 bytes is fatal HANDLE_TOO_LONG; else the response
`05 ‖ pk ‖ len ‖ handle ‖ cert ‖ sig ‖ 90 00`, the signature over
`00 ‖ application ‖ challenge ‖ handle ‖ pk`. -/
def Obligations.RegisterSignsAndResponds : Prop :=
  ∀ (U : Units) (s : State) (c k : Tag) (d : Apdu) (ch : Challenge) (kp : KeyPair)
    (handle : Bytes) (oc : Option Bytes),
    s.fatal = none → s.waitingFor c = some (.u2f k d (.createCertificate ch kp handle)) →
    s.resume U c (.certificate oc) =
      match oc with
      | none => { s with
          fatal := some .cryptoInvalidKey
          setup := none
          agents := (s.agents.filter (fun w => w.call ≠ c)).filter (fun w => !w.isU2f)
          trace := s.trace ++ [.answered c (.certificate none), .fatal .cryptoInvalidKey] }
      | some cert =>
        match U.sign (U.priv kp)
            ([0x00] ++ ch.application ++ ch.challenge ++ handle ++ publicKey U kp)
            (Config.draw s.draws) with
        | none => { s with
            fatal := some .cryptoInvalidKey
            setup := none
            agents := (s.agents.filter (fun w => w.call ≠ c)).filter (fun w => !w.isU2f)
            draws := s.draws + 1
            trace := s.trace ++ [.answered c (.certificate (some cert)),
              .fatal .cryptoInvalidKey] }
        | some sig =>
          if 255 < handle.length then { s with
            fatal := some .handleTooLong
            setup := none
            agents := (s.agents.filter (fun w => w.call ≠ c)).filter (fun w => !w.isU2f)
            draws := s.draws + 1
            trace := s.trace ++ [.answered c (.certificate (some cert)), .fatal .handleTooLong] }
          else { s with
            agents := s.agents.filter (fun w => w.call ≠ c)
            draws := s.draws + 1
            trace := s.trace ++ [.answered c (.certificate (some cert)),
              .respond k ([0x05] ++ publicKey U kp ++ [BitVec.ofNat 8 handle.length] ++ handle ++
                cert ++ sig ++ [0x90, 0x00])] }

/-- 30_encoding.md R115: where the fields of a REGISTER success response lie. -/
def Obligations.RegisterResponseLayout : Prop :=
  ∀ (U : Units) (kp : KeyPair) (handle cert sig : Bytes), handle.length ≤ 255 →
    (registerResponse U kp handle cert sig).length =
      69 + handle.length + cert.length + sig.length ∧
    (registerResponse U kp handle cert sig).getD 0 0 = 0x05 ∧
    (registerResponse U kp handle cert sig).getD 1 0 = 0x04 ∧
    ((registerResponse U kp handle cert sig).drop 1).take 65 =
      [0x04] ++ be256 (U.pubXY kp).1 ++ be256 (U.pubXY kp).2 ∧
    ((registerResponse U kp handle cert sig).getD 66 0).toNat = handle.length ∧
    ((registerResponse U kp handle cert sig).drop 67).take handle.length = handle ∧
    ((registerResponse U kp handle cert sig).drop (67 + handle.length)).take cert.length = cert ∧
    ((registerResponse U kp handle cert sig).drop (67 + handle.length + cert.length)).take
      sig.length = sig ∧
    (registerResponse U kp handle cert sig).drop
      (67 + handle.length + cert.length + sig.length) = [0x90, 0x00]

/-- 44_u2f_commands.md R240: the common checks of AUTHENTICATE pass exactly when the request holds its
handle, the handle opens under SK and the applications agree; bytes after the handle are ignored.
That the empty handle (L = 0) never opens is the spec's own general knowledge (R240 "because
the empty string is not a CBOR item"; PRESUMED, log 23). -/
def Obligations.AssertionOpensExactly : Prop :=
  ∀ (U : Units) (sk req : Bytes) (ch : Challenge) (kh : KeyHandle),
    openAssertion U sk req = some (ch, kh) ↔
      65 + (req.getD 64 0).toNat ≤ req.length ∧ 65 ≤ req.length ∧ req.getD 64 0 ≠ 0 ∧
      U.openBox sk ((req.drop 65).take (req.getD 64 0).toNat) = some kh ∧
      ch = ⟨req.take 32, (req.drop 32).take 32⟩ ∧ kh.applicationId = (req.drop 32).take 32

/-- 44_u2f_commands.md R240 to R244, 60_exceptions.md R277: P1 selects the row, which responds 6A80 when the
common checks fail (with L = 0 always: PRESUMED, log 23), whatever its control byte; else CHECK_ONLY
responds 6985, any other control byte 6700, ENFORCE asks for approval and SIGN for the counter. -/
def Obligations.AuthenticateRowsAnswer : Prop :=
  (∀ (k : Tag) (cla p1 p2 : Byte) (req : Bytes) (le : BitVec 16),
    decodeCommand k ⟨cla, 0x02, p1, p2, req, le⟩ =
      if p1 = 0x07 then .u2fAuthenticateCheckOnly k cla p2 req le
      else if p1 = 0x03 then .u2fAuthenticateEnforce k cla p2 req le
      else if p1 = 0x08 then .u2fAuthenticateSign k cla p2 req le
      else .u2fAuthenticateOtherP1 k cla p1 p2 req le) ∧
  ∀ (k : Tag) (cla p1 p2 : Byte) (req : Bytes) (le : BitVec 16) (s : State), s.fatal = none →
    exec (.u2fAuthenticateCheckOnly k cla p2 req le) s = .next { s with
      trace := s.trace ++ [.respond k
        (if (openAssertion Config.units s.sk req).isSome then [0x69, 0x85] else [0x6A, 0x80])] } ∧
    exec (.u2fAuthenticateOtherP1 k cla p1 p2 req le) s = .next { s with
      trace := s.trace ++ [.respond k
        (if (openAssertion Config.units s.sk req).isSome then [0x67, 0x00] else [0x6A, 0x80])] } ∧
    exec (.u2fAuthenticateEnforce k cla p2 req le) s = .next
      (match openAssertion Config.units s.sk req with
      | none => { s with trace := s.trace ++ [.respond k [0x6A, 0x80]] }
      | some (ch, kh) => { s with
          agents := s.agents ++ [⟨s.fresh, .u2f k ⟨cla, 0x02, 0x03, p2, req, le⟩
            (.approveAuthentication ch kh)⟩]
          fresh := s.fresh + 1
          trace := s.trace ++ [.callC s.fresh (.approveAuthentication kh)] }) ∧
    exec (.u2fAuthenticateSign k cla p2 req le) s = .next
      (match openAssertion Config.units s.sk req with
      | none => { s with trace := s.trace ++ [.respond k [0x6A, 0x80]] }
      | some (ch, kh) => { s with
          agents := s.agents ++ [⟨s.fresh, .u2f k ⟨cla, 0x02, 0x08, p2, req, le⟩
            (.nextCounter ch kh)⟩]
          fresh := s.fresh + 1
          trace := s.trace ++ [.callC s.fresh .nextCounterId] })

/-- 44_u2f_commands.md R242: a denied ENFORCE responds 6985 and draws no counter; an approved one asks
for the counter. -/
def Obligations.EnforceDeniedOrCounted : Prop :=
  ∀ (U : Units) (s : State) (c k : Tag) (d : Apdu) (ch : Challenge) (kh : KeyHandle) (ok : Bool),
    s.fatal = none → s.waitingFor c = some (.u2f k d (.approveAuthentication ch kh)) →
    s.resume U c (.authenticationApproved ok) =
      if ok then { s with
        agents := s.agents.filter (fun w => w.call ≠ c) ++ [⟨s.fresh, .u2f k d (.nextCounter ch kh)⟩]
        fresh := s.fresh + 1
        trace := s.trace ++ [.answered c (.authenticationApproved ok),
          .callC s.fresh .nextCounterId] }
      else { s with
        agents := s.agents.filter (fun w => w.call ≠ c)
        trace := s.trace ++ [.answered c (.authenticationApproved ok), .respond k [0x69, 0x85]] }

/-- 44_u2f_commands.md R245, R235: the counter is used verbatim, once; a key that does not decode and a
failed signature are fatal CRYPTO_INVALID_KEY; else the response `01 ‖ be32(ctr) ‖ sig ‖ 90 00`, the
signature over `application ‖ 01 ‖ be32(ctr) ‖ challenge`. -/
def Obligations.AssertionSignsTheCounterVerbatim : Prop :=
  ∀ (U : Units) (s : State) (c k : Tag) (d : Apdu) (ch : Challenge) (kh : KeyHandle)
    (ctr : BitVec 32),
    s.fatal = none → s.waitingFor c = some (.u2f k d (.nextCounter ch kh)) →
    s.resume U c (.counter ctr) =
      match U.privDec kh.privateKey with
      | none => { s with
          fatal := some .cryptoInvalidKey
          setup := none
          agents := (s.agents.filter (fun w => w.call ≠ c)).filter (fun w => !w.isU2f)
          trace := s.trace ++ [.answered c (.counter ctr), .fatal .cryptoInvalidKey] }
      | some priv =>
        match U.sign priv (ch.application ++ [0x01] ++ be32 ctr ++ ch.challenge)
            (Config.draw s.draws) with
        | none => { s with
            fatal := some .cryptoInvalidKey
            setup := none
            agents := (s.agents.filter (fun w => w.call ≠ c)).filter (fun w => !w.isU2f)
            draws := s.draws + 1
            trace := s.trace ++ [.answered c (.counter ctr), .fatal .cryptoInvalidKey] }
        | some sig => { s with
            agents := s.agents.filter (fun w => w.call ≠ c)
            draws := s.draws + 1
            trace := s.trace ++ [.answered c (.counter ctr),
              .respond k ([0x01] ++ be32 ctr ++ sig ++ [0x90, 0x00])] }

/-- 44_u2f_commands.md R231, R232, R240, R245: under the unit laws, a handle that REGISTER sealed for an
application passes AUTHENTICATE's checks for that application, with any challenge and any trailing
bytes, and its private key decodes. -/
def Obligations.RegisteredHandleAuthenticates : Prop :=
  ∀ (U : Units) (sk challenge handle tail n : Bytes) (kp : KeyPair) (ch : Challenge), U.Lawful →
    (U.privEnc kp).length ≤ 200 → ch.application.length = 32 → challenge.length = 32 →
    handle.length ≤ 255 → U.sealBox sk (keyHandleFor U kp ch) n = some handle →
    openAssertion U sk
        (challenge ++ ch.application ++ [BitVec.ofNat 8 handle.length] ++ handle ++ tail) =
      some (⟨challenge, ch.application⟩, keyHandleFor U kp ch) ∧
    U.privDec (keyHandleFor U kp ch).privateKey = some (U.priv kp)

/-- 44_u2f_commands.md R231 to R233, R245: under the unit laws, when the counter comes for a handle that
REGISTER made for a keypair, the assertion responded verifies under that keypair's public key, over the
counter the client gave; the only other ending is the fatal error of a failed signature. -/
def Obligations.AssertionVerifiesUnderTheRegisteredKey : Prop :=
  ∀ (U : Units) (verify : Bytes → Bytes → Bytes → Prop) (s : State) (c k : Tag) (d : Apdu)
    (ch issued : Challenge) (kp : KeyPair) (ctr : BitVec 32),
    U.Lawful → SignLaw U verify → s.fatal = none →
    s.waitingFor c = some (.u2f k d (.nextCounter ch (keyHandleFor U kp issued))) →
    (s.resume U c (.counter ctr)).fatal = some .cryptoInvalidKey ∨
      ∃ sig, (s.resume U c (.counter ctr)).fatal = none ∧
        (s.resume U c (.counter ctr)).trace =
          s.trace ++ [.answered c (.counter ctr), .respond k (assertionResponse ctr sig)] ∧
        verify (publicKey U kp) (assertionMessage ch ctr) sig

/-- 44_u2f_commands.md R239: where every sealing fits in 255 bytes, no answer makes the block raise
HANDLE_TOO_LONG, given that the handles it holds are sealings. -/
def Obligations.ConformantSealNeverRaisesHandleTooLong : Prop :=
  ∀ (U : Units) (s : State) (c : Tag) (a : Answer),
    ConformantSeal U → HandlesSealed U s → s.fatal ≠ some .handleTooLong →
    (s.resume U c a).fatal ≠ some .handleTooLong

/-- The frame of the APDU rows (44_u2f_commands.md R230): whatever an APDU does when it arrives, the
delivery queue, SK, every buffer byte, the draws, the parameters and the schedule stay, and FATAL is the
only register it may write. While FATAL stays, no agent already suspended is touched and at most one is
added; when FATAL is set, exactly the suspended U2F calls are gone (10_state.md R25). -/
def Obligations.ApduRowsLeaveTheRestAlone : Prop :=
  ∀ (q : RequestCodes) (i : Instr) (k : Tag) (a : Bytes) (s t : State), encode q i = .apdu k a →
    exec i s = .next t →
    t.dlvq = s.dlvq ∧ t.sk = s.sk ∧ (∀ b, t.mem.read b = s.mem.read b) ∧ t.bufTop = s.bufTop ∧
      t.inputs = s.inputs ∧ t.draws = s.draws ∧ t.params = s.params ∧
      (t.fatal = s.fatal ∧ t.setup = s.setup ∧
          (t.agents = s.agents ∨ ∃ w, t.agents = s.agents ++ [w] ∧ w.call = s.fresh) ∨
        s.fatal = none ∧ t.fatal ≠ none ∧ t.setup = none ∧
          t.agents = s.agents.filter (fun w => !w.isU2f))

/-! ### The whole machine -/

/-- When the next input is a call that decodes, step is exec of the decoded instruction at the state in
which the call has arrived: the input consumed, the transport's bytes in the new buffer, the call
numbered and recorded (log 1, log 2, log 5). With 42_endpoint_transfers.md R181, a control URB's step
is exec of the SETUP row it carries. -/
def Obligations.StepRunsTheDecodedInstruction : Prop :=
  ∀ (s : State) (c : Call) (i : Instr) (more : List Input),
    s.inputs = .call c :: more → decode (s.arriving c) = .ok i →
    step s = exec i { s with
      mem := s.mem.writeBytes s.bufTop (Call.bytes c)
      bufTop := s.bufTop + (Call.bytes c).length
      fresh := s.fresh + 1
      trace := s.trace ++ [.call (s.arriving c)]
      inputs := more }

/-- When the next input is an answer, step resumes the agent that waits for it (60_exceptions.md R275);
the statements about `State.resume` reach a run through this one. -/
def Obligations.AnswersReachTheirAgentThroughStep : Prop :=
  ∀ (s : State) (c : Tag) (a : Answer) (more : List Input), s.inputs = .answer c a :: more →
    step s = .next (State.resume Config.units { s with inputs := more } c a)

/-- Each step takes exactly the next input, if any, the trace only grows (10_state.md R34; the schedule is
log 1), and the parameters stay (00_scope.md R8; that they stand in the state is log 25). -/
def Obligations.StepsTakeOneInputAndOnlyAddEvents : Prop :=
  ∀ s t : State, step s = .next t → 
    t.inputs = s.inputs.tail ∧ s.trace <+: t.trace ∧ t.params = s.params

/-- With no input a running block waits (70_reset_and_hazards.md R302) and a fatal one is a fault
(60_exceptions.md R273): the model's choices of log 6 and log 7. -/
def Obligations.NoInputWaitsOrIsTheFatalFault : Prop :=
  ∀ s : State, s.inputs = [] →
    (s.fatal = none → step s = .next s) ∧ ∀ r, s.fatal = some r → step s = .fault (.fatalStop r)

/-- 60_exceptions.md R273: while FATAL holds no instruction does anything, and a step that is not RESET
leaves FATAL, the queue, SK, the agents and every placed buffer byte alone, responds nothing and
finishes nothing: at most it records that a call or an answer arrived (10_state.md R34). -/
def Obligations.NothingRunsWhileFatal : Prop :=
  (∀ (i : Instr) (s : State), s.fatal ≠ none → exec i s = .next s) ∧
  ∀ s t : State, s.fatal ≠ none → (∀ key more, s.inputs ≠ .reset key :: more) →
    step s = .next t →
    t.fatal = s.fatal ∧ t.dlvq = s.dlvq ∧ t.sk = s.sk ∧ t.agents = s.agents ∧ t.setup = s.setup ∧
      t.draws = s.draws ∧ t.params = s.params ∧ (∀ b, b < s.bufTop → t.mem.read b = s.mem.read b) ∧
      (t.trace = s.trace ∨ (∃ c, t.trace = s.trace ++ [.call c]) ∨
        ∃ c a, t.trace = s.trace ++ [.answered c a])

/-- 70_reset_and_hazards.md R301: RESET, from any state, fatal or not. -/
def Obligations.ResetClearsTheBlock : Prop :=
  ∀ (s : State) (key : Bytes) (more : List Input), s.inputs = .reset key :: more →
    step s = .next { s with
      fatal := none
      dlvq := []
      sk := key
      setup := none
      agents := []
      trace := s.trace ++ [.reset key]
      inputs := more }

/-- 10_state.md R35 and 70_reset_and_hazards.md R301, R315: the reset state meets CLEAN_START, with SK the
client's sealing key; so does the state after any RESET at which the client answers at least 32
bytes. -/
def Obligations.ResetStateIsACleanStart : Prop :=
  CleanStart State.reset ∧ StableKey State.reset ∧ State.reset.sk = Config.sealingKey ∧
    ∀ (s t : State) (key : Bytes) (more : List Input), s.inputs = .reset key :: more →
      32 ≤ key.length → step s = .next t → CleanStart t ∧ t.sk = key

/-- 70_reset_and_hazards.md R314: the reset state is at its end; a run that is fatal, has a delivery
pending or an agent suspended is not. -/
def Obligations.FatalOrPendingRunsAreNotAtTheirEnd : Prop :=
  State.reset.atEnd = true ∧
    ∀ s : State, s.fatal ≠ none ∨ s.dlvq ≠ [] ∨ s.agents ≠ [] → s.atEnd = false

/-- Both invariants hold at reset. -/
def Obligations.InvHoldsAtReset : Prop := Inv State.reset ∧ HandlesSealed Config.units State.reset

/-- Every step keeps the invariant: canonical buffer memory, no latch live between steps (10_state.md
R24), at most the head WAITING (R27), each pending delivery's buffer its own (20_memory.md R50), no
call waited for twice. -/
def Obligations.EveryStepKeepsInv : Prop := ∀ s t : State, Inv s → step s = .next t → Inv t

/-- Every step keeps the handles of suspended REGISTERs sealings of their own key and application
(44_u2f_commands.md R237 steps 4 to 7). -/
def Obligations.EveryStepKeepsHandlesSealed : Prop :=
  ∀ s t : State, HandlesSealed Config.units s → step s = .next t → HandlesSealed Config.units t

/-- 10_state.md R26, R31: only RESET writes SK, and only RESET clears FATAL. -/
def Obligations.OnlyResetWritesSkOrClearsFatal : Prop :=
  ∀ s t : State, step s = .next t → (∀ key more, s.inputs ≠ .reset key :: more) →
    t.sk = s.sk ∧ ∀ r, s.fatal = some r → t.fatal = some r

/-- 30_encoding.md R118, 60_exceptions.md R270: whatever a step responds ends in 9000, 6985, 6A80 or
6700; 6E00 and 6D00 are never emitted. -/
def Obligations.EveryResponseEndsInAnEmittedStatusWord : Prop :=
  ∀ s t : State, step s = .next t →
    ∃ events, t.trace = s.trace ++ events ∧
      ∀ k bytes, Event.respond k bytes ∈ events → EndsInStatusWord bytes

/-- 20_memory.md R67, 42_endpoint_transfers.md R190: a step changes a byte below the next free place only
when it delivers an answer to the WAITING head, and then only within the copied bytes at the start of
that head's buffer. -/
def Obligations.StepsWriteOnlyTheAnsweredBuffer : Prop :=
  ∀ (s t : State) (b : Nat), step s = .next t → b < s.bufTop → t.mem.read b ≠ s.mem.read b →
    ∃ x rest c data more, s.fatal = none ∧ s.dlvq = ⟨x, .waiting c⟩ :: rest ∧
      s.inputs = .answer c (.response (some data)) :: more ∧
      x.buf.base ≤ b ∧ b < x.buf.base + copyLen x.buf data

/-- 42_endpoint_transfers.md R190 with R182, R185, R187: a step fires at most one FINISH, and only for a
control URB that has just arrived, the WAITING head answered with data, or an intake whose delegate has
returned. -/
def Obligations.FinishFiresOnlyForItsUrb : Prop :=
  ∀ s t : State, step s = .next t →
    ∃ events, t.trace = s.trace ++ events ∧ (events.filter Event.isFinish).length ≤ 1 ∧
      ∀ x n bytes, Event.finish x n bytes ∈ events → s.fatal = none ∧
        ((∃ id b buf more, s.inputs = .call (.handleMessage id Config.epCtrl b buf) :: more ∧
            x = ⟨id, ⟨s.bufTop, buf.length⟩⟩ ∧ n ≤ buf.length) ∨
          (∃ c rest data more, s.dlvq = ⟨x, .waiting c⟩ :: rest ∧
            s.inputs = .answer c (.response (some data)) :: more ∧ n = copyLen x.buf data) ∨
          ∃ c more, s.waitingFor c = some (.intake x) ∧ s.inputs = .answer c .handled :: more ∧
            n = 0)

/-- 20_memory.md R71: a step never reorders deliveries: the queue afterwards is the queue before it,
plus at most the URB that has just arrived at its tail, less the URBs that left. -/
def Obligations.DeliveriesKeepArrivalOrder : Prop :=
  ∀ s t : State, step s = .next t →
    ∃ arrived : List Xfer, arrived.length ≤ 1 ∧
      (t.dlvq.map DlvEntry.xfer).Sublist (s.dlvq.map DlvEntry.xfer ++ arrived) ∧
      ∀ x ∈ arrived, ∃ id b buf more,
        s.inputs = .call (.handleMessage id Config.epIn b buf) :: more ∧
          x = ⟨id, ⟨s.bufTop, buf.length⟩⟩

/-- 60_exceptions.md R274: the nine reasons and their codes. -/
def Obligations.FatalReasonCodes : Prop :=
  [FatalReason.unknownRecipient, .unknownRequest, .invalidDescriptorType, .invalidStringIndex,
    .unknownIns, .keyParse, .cryptoInvalidKey, .unknownEndpoint, .handleTooLong].map
      FatalReason.code = [1, 2, 3, 4, 5, 6, 7, 8, 9]
end

