-- ==== Sys2Proof/Tests/Slice0.lean ====
section
/-! SUPPORT. The model's own tests: ill-formed terms, words written out from the spec's encodings, the
vectors of 95_test_vectors.md one step at a time, and a witness for the hypotheses of each statement. -/

namespace Sys2Proof.Tests

open Sys2Proof.Machine

/-! ### Helpers -/

/-- Setup bytes in wire order. -/
def setup (b0 b1 b2 b3 b4 b5 b6 b7 : Byte) : SetupBytes := ⟨b0, b1, b2, b3, b4, b5, b6, b7⟩

/-- URB 7 with a 64-byte buffer at 0. -/
def urb7 : Xfer := ⟨7, ⟨0, 64⟩⟩

/-- URB 8 with a 64-byte buffer behind it. -/
def urb8 : Xfer := ⟨8, ⟨64, 64⟩⟩

/-- The default codes of 00_scope.md R8, which the vectors use. -/
abbrev std : RequestCodes := Config.defaultCodes

/-- Other codes, distinct too: recipients 5, 6, 7 and requests from 0x40 up, the interface requests with
the numbers of device requests (30_encoding.md R105). -/
def otherCodes : RequestCodes where
  reqGetStatus := 0x41
  reqGetDescriptor := 0x40
  reqSetConfiguration := 0x42
  reqSetIdle := 0x41
  reqSetProtocol := 0x42
  recDevice := 5
  recInterface := 6
  recEndpoint := 7

/-- A state after RESET with a sealing key written out and an empty trace, and the given schedule. -/
def start (inputs : List Input) : State :=
  { State.reset with sk := List.replicate 32 0x5A, trace := [], inputs := inputs }

/-- A state with two URBs placed, the given queue and schedule. -/
def queued (dlvq : List DlvEntry) (inputs : List Input) : State :=
  { start inputs with dlvq := dlvq, bufTop := 128, fresh := 4 }

/-- A state with the given agents suspended, and the given schedule. -/
def suspended (agents : List Suspended) (inputs : List Input) : State :=
  { start inputs with agents := agents, bufTop := 128, fresh := 4 }

/-- A fatal state with the given schedule. -/
def stopped (inputs : List Input) : State := { start inputs with fatal := some .unknownRequest }

/-- What `f` says of the next state, if there is one. -/
def after {α : Type} (o : Host.Outcome State Fault Refusal) (f : State → α) : Option α :=
  match o with
  | .next s => some (f s)
  | .fault _ => none
  | .refused _ => none

/-- The last event of a trace. -/
def lastEvent (s : State) : Option Event := s.trace.getLast?

/-- Units that satisfy the laws of 44_u2f_commands.md R231 to R233: the key is its own length, the box
is the handle with a length byte, the signature is the message. -/
def toy : Units where
  pubXY kp := (BitVec.ofNat 256 kp.token, 1)
  privEnc kp := List.replicate kp.token 0x11
  priv kp := ⟨kp.token⟩
  privDec b := some ⟨b.length⟩
  sealBox _ kh _ :=
    if kh.privateKey.length ≤ 200 ∧ kh.applicationId.length ≤ 32 then
      some (BitVec.ofNat 8 kh.privateKey.length :: (kh.privateKey ++ kh.applicationId))
    else none
  openBox _ b :=
    match b with
    | [] => none
    | n :: rest => some ⟨rest.take n.toNat, rest.drop n.toNat⟩
  sign _ msg _ := some (0x30 :: msg)

/-- `toy`, but sealing to 256 bytes. -/
def toyLong : Units := { toy with sealBox := fun _ _ _ => some (List.replicate 256 0x01) }

/-- `toy`, but refusing to seal, to sign and to decode keys. -/
def toyRefuses : Units :=
  { toy with sealBox := fun _ _ _ => none, sign := fun _ _ _ => none, privDec := fun _ => none }

/-- What `VERIFY` accepts of `toy`. -/
def toyVerify (_pk msg sig : Bytes) : Prop := sig = 0x30 :: msg

/-- Challenge `42×32` and application `17×32` (S4). -/
def s4 : Challenge := ⟨List.replicate 32 0x42, List.replicate 32 0x17⟩

/-- A keypair whose encoded private key has two bytes. -/
def kp2 : KeyPair := ⟨2⟩

/-- The handle `toy` seals for `kp2` and the application of S4. -/
def handle2 : Bytes := [0x02, 0x11, 0x11] ++ List.replicate 32 0x17

/-- An AUTHENTICATE request for a given application with `handle2` (30_encoding.md R114). -/
def authRequest (application : Bytes) : Bytes :=
  List.replicate 32 0x42 ++ application ++ [0x23] ++ handle2

/-- A latched APDU; its values play no part in the tests. -/
def anApdu : Apdu := ⟨0x00, 0x01, 0x00, 0x00, [], 0⟩

/-- Agent U2F(0) waiting for call 3 at the given point. -/
def waiting (w : U2fWait) : List Suspended := [⟨3, .u2f 0 anApdu w⟩]

/-! ### WellFormed: an ill-formed term for each check -/

def noAttrs : Attrs := ⟨0, 1, 0, 0⟩

theorem test_illformed_device_type :
    WellFormed std (.fatalDeviceGetDescriptorType urb7 noAttrs 0x01 0) = false ∧
    WellFormed std (.fatalDeviceGetDescriptorType urb7 noAttrs 0x02 0) = false ∧
    WellFormed std (.fatalDeviceGetDescriptorType urb7 noAttrs 0x03 0) = false ∧
    WellFormed std (.fatalDeviceGetDescriptorType urb7 noAttrs 0x22 0) = true := by decide
theorem test_illformed_device_request :
    WellFormed std (.fatalDeviceUnknownRequest urb7 noAttrs 0x06 0) = false ∧
    WellFormed std (.fatalDeviceUnknownRequest urb7 noAttrs 0x09 0) = false ∧
    WellFormed std (.fatalDeviceUnknownRequest urb7 noAttrs 0x00 0) = false ∧
    WellFormed std (.fatalDeviceUnknownRequest urb7 noAttrs 0x01 0) = true := by decide
theorem test_illformed_interface_type :
    WellFormed std (.fatalInterfaceGetDescriptorType urb7 noAttrs 0x22 0) = false ∧
    WellFormed std (.fatalInterfaceGetDescriptorType urb7 noAttrs 0x21 0) = true := by decide
theorem test_illformed_interface_request :
    WellFormed std (.fatalInterfaceUnknownRequest urb7 noAttrs 0x0A 0) = false ∧
    WellFormed std (.fatalInterfaceUnknownRequest urb7 noAttrs 0x0B 0) = false ∧
    WellFormed std (.fatalInterfaceUnknownRequest urb7 noAttrs 0x06 0) = false ∧
    WellFormed std (.fatalInterfaceUnknownRequest urb7 noAttrs 0x01 0) = true := by decide
theorem test_illformed_recipient :
    WellFormed std (.fatalUnknownRecipient urb7 noAttrs 0 0 0) = false ∧
    WellFormed std (.fatalUnknownRecipient urb7 noAttrs 1 0 0) = false ∧
    WellFormed std (.fatalUnknownRecipient urb7 noAttrs 2 0 0) = true := by decide
theorem test_illformed_endpoint :
    WellFormed std (.fatalUnknownEndpoint urb7 (setup 0 0 0 0 0 0 0 0) 0) = false ∧
    WellFormed std (.fatalUnknownEndpoint urb7 (setup 0 0 0 0 0 0 0 0) 1) = false ∧
    WellFormed std (.fatalUnknownEndpoint urb7 (setup 0 0 0 0 0 0 0 0) 2) = false ∧
    WellFormed std (.fatalUnknownEndpoint urb7 (setup 0 0 0 0 0 0 0 0) 3) = true := by decide
theorem test_illformed_control_byte :
    WellFormed std (.u2fAuthenticateOtherP1 0 0 0x07 0 [] 0) = false ∧
    WellFormed std (.u2fAuthenticateOtherP1 0 0 0x03 0 [] 0) = false ∧
    WellFormed std (.u2fAuthenticateOtherP1 0 0 0x08 0 [] 0) = false ∧
    WellFormed std (.u2fAuthenticateOtherP1 0 0 0x00 0 [] 0) = true := by decide
theorem test_illformed_ins :
    WellFormed std (.fatalUnknownIns 0 0 0x01 0 0 [] 0) = false ∧
    WellFormed std (.fatalUnknownIns 0 0 0x02 0 0 [] 0) = false ∧
    WellFormed std (.fatalUnknownIns 0 0 0x03 0 0 [] 0) = false ∧
    WellFormed std (.fatalUnknownIns 0 0 0x04 0 0 [] 0) = true := by decide

/-- A request of 65536 bytes does not fit `Lc`, whatever the row. -/
theorem test_illformed_request_length (req : Bytes) (h : req.length = 65536) :
    WellFormed std (.u2fRegister 0 0 0 0 req 0) = false ∧
    WellFormed std (.u2fAuthenticateCheckOnly 0 0 0 req 0) = false ∧
    WellFormed std (.u2fAuthenticateEnforce 0 0 0 req 0) = false ∧
    WellFormed std (.u2fAuthenticateSign 0 0 0 req 0) = false ∧
    WellFormed std (.u2fAuthenticateOtherP1 0 0 0 0 req 0) = false ∧
    WellFormed std (.u2fVersion 0 0 0 0 req 0) = false ∧
    WellFormed std (.fatalUnknownIns 0 0 4 0 0 req 0) = false := by
  simp [WellFormed, requestFits, h]

/-- Such a request exists, and so does one of 65535 bytes that fits. -/
theorem witness_request_lengths :
    (List.replicate 65536 (0 : Byte)).length = 65536 ∧
    requestFits (List.replicate 65535 0) = true :=
  ⟨List.length_replicate, decide_eq_true (Nat.le_of_eq List.length_replicate)⟩

/-! ### SETUP words (30_encoding.md R100 to R106, R123; vectors V-SD) -/

theorem test_setup_fields_sd1 : (setup 0x80 0x06 0x00 0x01 0x00 0x00 0x40 0x00).fields =
    ⟨0x80, 0x06, 0x0100, 0x0000, 64⟩ := by decide
theorem test_setup_fields_sd6 :
    let p := (setup 0xFF 0x06 0x34 0x12 0x78 0x56 0xBC 0x9A).fields
    p.recipient = 31 ∧ p.kind = 3 ∧ p.direction = 1 ∧ p.wValue = 0x1234 ∧ p.wIndex = 0x5678 ∧
      p.wLength = 0x9ABC ∧ p.descType = 0x12 ∧ p.descIndex = 0x34 := by decide
theorem test_setup_word_sd1 :
    SetupBytes.ofWord 0x0040000001000680 = setup 0x80 0x06 0x00 0x01 0x00 0x00 0x40 0x00 := by
  decide

theorem test_decode_getDescriptorDevice :
    decodeSetup std urb7 (setup 0x80 0x06 0x00 0x01 0x00 0x00 0x12 0x00) =
      .getDescriptorDevice urb7 ⟨0, 1, 0, 18⟩ 0 := by decide
theorem test_decode_getDescriptorConfiguration :
    decodeSetup std urb7 (setup 0x80 0x06 0x07 0x02 0x00 0x00 0xFF 0x00) =
      .getDescriptorConfiguration urb7 ⟨0, 1, 0, 255⟩ 7 := by decide
theorem test_decode_getDescriptorString :
    decodeSetup std urb7 (setup 0x80 0x06 0x02 0x03 0x09 0x04 0xFF 0x00) =
      .getDescriptorString urb7 ⟨0, 1, 0x0409, 255⟩ 2 := by decide
theorem test_decode_fatalDeviceGetDescriptorType :
    decodeSetup std urb7 (setup 0x80 0x06 0x00 0x22 0x00 0x00 0x40 0x00) =
      .fatalDeviceGetDescriptorType urb7 ⟨0, 1, 0, 64⟩ 0x22 0 := by decide
theorem test_decode_setConfiguration :
    decodeSetup std urb7 (setup 0x00 0x09 0x01 0x00 0x00 0x00 0x00 0x00) =
      .setConfiguration urb7 ⟨0, 0, 0, 0⟩ 1 := by decide
theorem test_decode_getStatus :
    decodeSetup std urb7 (setup 0x80 0x00 0x00 0x00 0x00 0x00 0x02 0x00) =
      .getStatus urb7 ⟨0, 1, 0, 2⟩ 0 := by decide
theorem test_decode_fatalDeviceUnknownRequest :
    decodeSetup std urb7 (setup 0x00 0x01 0x00 0x00 0x00 0x00 0x00 0x00) =
      .fatalDeviceUnknownRequest urb7 ⟨0, 0, 0, 0⟩ 0x01 0 := by decide
theorem test_decode_setIdle :
    decodeSetup std urb7 (setup 0x21 0x0A 0x00 0x00 0x00 0x00 0x00 0x00) =
      .setIdle urb7 ⟨1, 0, 0, 0⟩ 0 := by decide
theorem test_decode_setProtocol :
    decodeSetup std urb7 (setup 0x21 0x0B 0x01 0x00 0x00 0x00 0x00 0x00) =
      .setProtocol urb7 ⟨1, 0, 0, 0⟩ 1 := by decide
theorem test_decode_getDescriptorHidReport :
    decodeSetup std urb7 (setup 0x81 0x06 0x00 0x22 0x00 0x00 0x22 0x00) =
      .getDescriptorHidReport urb7 ⟨0, 1, 0, 34⟩ 0 := by decide
theorem test_decode_fatalInterfaceGetDescriptorType :
    decodeSetup std urb7 (setup 0x81 0x06 0x00 0x21 0x00 0x00 0x09 0x00) =
      .fatalInterfaceGetDescriptorType urb7 ⟨0, 1, 0, 9⟩ 0x21 0 := by decide
theorem test_decode_fatalInterfaceUnknownRequest :
    decodeSetup std urb7 (setup 0xA1 0x01 0x00 0x01 0x00 0x00 0x40 0x00) =
      .fatalInterfaceUnknownRequest urb7 ⟨1, 1, 0, 64⟩ 0x01 0x0100 := by decide
theorem test_decode_fatalUnknownRecipient :
    decodeSetup std urb7 (setup 0x82 0x00 0x00 0x00 0x81 0x00 0x02 0x00) =
      .fatalUnknownRecipient urb7 ⟨0, 1, 0x0081, 2⟩ 2 0x00 0 := by decide

/-! ### URBs and port-T calls (30_encoding.md R108; 42_endpoint_transfers.md R180, R189, R191) -/

theorem test_decode_urb_rows (b : SetupBytes) :
    decode (.handleMessage urb7 0 b) = .ok (.urbControl urb7 b) ∧
    decode (.handleMessage urb7 1 b) = .ok (.urbDeliver urb7 b) ∧
    decode (.handleMessage urb7 2 b) = .ok (.urbIntake urb7 b) ∧
    decode (.handleMessage urb7 3 b) = .ok (.fatalUnknownEndpoint urb7 b 3) ∧
    decode (.handleMessage urb7 256 b) = .ok (.fatalUnknownEndpoint urb7 b 256) :=
  ⟨rfl, rfl, rfl, rfl, rfl⟩
theorem test_decode_port_t :
    decode (.removeWaitingRequest 5 7) = .ok (.cancel 5 7) ∧
    decode (.busId 5) = .ok (.busId 5) ∧ decode (.deviceSummary 5) = .ok (.deviceSummary 5) :=
  ⟨rfl, rfl, rfl⟩

/-! ### APDUs (43_apdu_framing.md R210 to R219; vectors V-AD, V-IN) -/

theorem test_decode_version : (decode (.apdu 5 [0xFF, 0x03, 0xFF, 0xFE])).toOption =
    some (.u2fVersion 5 0xFF 0xFF 0xFE [] 0) := by decide
theorem test_decode_register : (decode (.apdu 5 [0x00, 0x01, 0x00, 0x00])).toOption =
    some (.u2fRegister 5 0x00 0x00 0x00 [] 0) := by decide
theorem test_decode_authenticate_enforce :
    (decode (.apdu 5 [0x00, 0x02, 0x03, 0x00, 0x00, 0x00, 0x02, 0xAA, 0xBB, 0x01, 0x00])).toOption =
      some (.u2fAuthenticateEnforce 5 0x00 0x00 [0xAA, 0xBB] 256) := by decide
theorem test_decode_authenticate_others :
    (decode (.apdu 5 [0x00, 0x02, 0x07, 0x09])).toOption =
      some (.u2fAuthenticateCheckOnly 5 0x00 0x09 [] 0) ∧
    (decode (.apdu 5 [0x00, 0x02, 0x08, 0x00])).toOption =
      some (.u2fAuthenticateSign 5 0x00 0x00 [] 0) ∧
    (decode (.apdu 5 [0x00, 0x02, 0x00, 0x00])).toOption =
      some (.u2fAuthenticateOtherP1 5 0x00 0x00 0x00 [] 0) := by decide
theorem test_decode_unknown_ins : (decode (.apdu 5 [0x00, 0xFF, 0x00, 0x00, 0x00, 0x00, 0x00])).toOption =
    some (.fatalUnknownIns 5 0x00 0xFF 0x00 0x00 [] 0) := by decide

theorem test_apdu_forms :
    (decodeApdu [0, 3, 0, 0, 0, 1, 0]).toOption = some ⟨0, 3, 0, 0, [], 256⟩ ∧
    (decodeApdu [0, 3, 0, 0, 0, 0, 5, 1, 2, 3, 4, 5]).toOption =
      some ⟨0, 3, 0, 0, [1, 2, 3, 4, 5], 0⟩ ∧
    (decodeApdu [0, 3, 0, 0, 0, 0, 0, 0, 0, 0xFF]).toOption = some ⟨0, 3, 0, 0, [], 0⟩ ∧
    (decodeApdu [0, 3, 0, 0, 0, 0, 1, 0xAA, 0, 5, 0xEE, 0xEE]).toOption =
      some ⟨0, 3, 0, 0, [0xAA], 5⟩ := by decide
theorem test_apdu_malformed :
    (decodeApdu [0, 3, 0]).toOption = none ∧ (decodeApdu []).toOption = none ∧
    (decodeApdu [0, 3, 0, 0, 0]).toOption = none ∧ (decodeApdu [0, 3, 0, 0, 0, 0]).toOption = none ∧
    (decodeApdu [0, 1, 0, 0, 0, 0, 0x40, 0xAA]).toOption = none ∧
    (decodeApdu [0, 3, 0, 0, 0, 0, 0, 0]).toOption = none ∧
    (decodeApdu [0, 3, 0, 0, 0, 0, 1, 0xAA, 0]).toOption = none ∧
    (decodeApdu [0, 3, 0, 0, 5]).toOption = none ∧
    (decodeApdu [0, 4, 0, 0, 1]).toOption = none := by decide

/-! ### Words of the opcode table, decoded and run as the first instruction after reset -/

theorem test_table_setup_rows :
    decodeTableWord 32 0x01000600 =
      some (.getDescriptorDevice ⟨0, ⟨0, 64⟩⟩ ⟨0, 0, 0, 0⟩ 0) ∧
    decodeTableWord 32 0x22000601 =
      some (.getDescriptorHidReport ⟨0, ⟨0, 64⟩⟩ ⟨0, 0, 0, 0⟩ 0) ∧
    decodeTableWord 16 0x0900 = some (.setConfiguration ⟨0, ⟨0, 64⟩⟩ ⟨0, 0, 0, 0⟩ 0) := by decide
theorem test_table_urb_and_apdu_rows :
    decodeTableWord 32 2 = some (.urbIntake ⟨0, ⟨0, 64⟩⟩ ⟨0, 0, 0, 0, 0, 0, 0, 0⟩) ∧
    decodeTableWord 24 0x010000 = some (.u2fRegister 0 0 0 0 [] 0) ∧
    decodeTableWord 24 0x020800 = some (.u2fAuthenticateSign 0 0 0 [] 0) := by decide
theorem test_table_word_runs_descriptor :
    after (step (State.reset.withFetchWord 32 0x01000600)) (fun t => t.mem.readBytes 0 18) =
      some Rom.device := by decide
theorem test_table_word_runs_version :
    after (step (State.reset.withFetchWord 24 0x030000)) lastEvent =
      some (some (.respond 0 [0x55, 0x32, 0x46, 0x5F, 0x56, 0x32, 0x90, 0x00])) := by decide
theorem test_table_word_runs_deliver :
    after (step (State.reset.withFetchWord 32 1)) State.dlvq =
      some [⟨⟨0, ⟨0, 64⟩⟩, .queued⟩] := by decide

/-! ### EP0 control requests, one step each (95_test_vectors.md L2.2) -/

/-- A control URB 5 with the given setup bytes and a buffer of `n` bytes 0xEE. -/
def control (b : SetupBytes) (n : Nat) : State :=
  start [.call (.handleMessage 5 0 b (List.replicate n 0xEE))]

theorem test_vector_dd2 :
    after (step (control (setup 0x80 0x06 0x00 0x01 0x00 0x00 0x08 0x00) 8)) lastEvent =
      some (some (.finish ⟨5, ⟨0, 8⟩⟩ 8 [0x12, 0x01, 0x10, 0x01, 0x00, 0x00, 0x00, 0x40])) := by
  decide
theorem test_vector_dd3_and_gs1 :
    after (step (control (setup 0x80 0x06 0x00 0x01 0x00 0x00 0x40 0x00) 0)) lastEvent =
      some (some (.finish ⟨5, ⟨0, 0⟩⟩ 0 [])) ∧
    after (step (control (setup 0x80 0x00 0x00 0x00 0x00 0x00 0x02 0x00) 2)) lastEvent =
      some (some (.finish ⟨5, ⟨0, 2⟩⟩ 1 [0x01, 0xEE])) := by decide
theorem test_vector_cf2 :
    after (step (control (setup 0x80 0x06 0x00 0x02 0x00 0x00 0x09 0x00) 9)) lastEvent =
      some (some (.finish ⟨5, ⟨0, 9⟩⟩ 9
        [0x09, 0x02, 0x29, 0x00, 0x01, 0x01, 0x04, 0xC0, 0x00])) := by decide
theorem test_vector_cf1_image :
    Rom.configurationBlock Config.defaultDescriptors =
      [0x09, 0x02, 0x29, 0x00, 0x01, 0x01, 0x04, 0xC0, 0x00, 0x09, 0x04, 0x00, 0x00, 0x02, 0x03, 0x00,
        0x00, 0x05, 0x09, 0x21, 0x01, 0x01, 0x00, 0x01, 0x22, 0x22, 0x00] ++
      [0x07, 0x05, 0x81, 0x03, 0x40, 0x00, 0xFF, 0x07, 0x05, 0x02, 0x03, 0x40, 0x00, 0xFF] := by
  decide
/-- V-CF-2 on a machine built with other parameters (20_memory.md R53). -/
theorem test_configuration_takes_its_parameters :
    after (step { control (setup 0x80 0x06 0x00 0x02 0x00 0x00 0x09 0x00) 9 with
        params := ⟨std, 0x02, 0x00, 0x80, 0x32, 30, 0x82, 0x01⟩ }) lastEvent =
      some (some (.finish ⟨5, ⟨0, 9⟩⟩ 9
        [0x09, 0x02, 0x29, 0x00, 0x01, 0x02, 0x00, 0x80, 0x32])) := by decide
/-- A machine built with other codes serves those (V-GS-1, V-SI-2) and not the default ones (R8, D3). -/
theorem test_dispatch_takes_its_codes :
    after (step { control (setup 0x85 0x41 0x00 0x00 0x00 0x00 0x02 0x00) 2 with
        params := ⟨otherCodes, Config.defaultDescriptors⟩ }) lastEvent =
      some (some (.finish ⟨5, ⟨0, 2⟩⟩ 1 [0x01, 0xEE])) ∧
    after (step { control (setup 0x26 0x41 0x00 0x00 0x00 0x00 0x02 0x00) 2 with
        params := ⟨otherCodes, Config.defaultDescriptors⟩ }) lastEvent =
      some (some (.finish ⟨5, ⟨0, 2⟩⟩ 0 [0xEE, 0xEE])) ∧
    after (step { control (setup 0x80 0x00 0x00 0x00 0x00 0x00 0x02 0x00) 2 with
        params := ⟨otherCodes, Config.defaultDescriptors⟩ }) State.fatal =
      some (some .unknownRecipient) := by decide
theorem test_vector_st8 :
    after (step (control (setup 0x80 0x06 0x02 0x03 0x07 0x04 0x02 0x00) 2)) lastEvent =
      some (some (.finish ⟨5, ⟨0, 2⟩⟩ 2 [0x1A, 0x03])) := by decide
theorem test_vector_st6_st7 :
    after (step (control (setup 0x80 0x06 0x06 0x03 0x09 0x04 0xFF 0x00) 4)) State.fatal =
      some (some .invalidStringIndex) ∧
    after (step (control (setup 0x80 0x06 0xFF 0x03 0x09 0x04 0xFF 0x00) 4)) lastEvent =
      some (some (.fatal .invalidStringIndex)) := by decide
theorem test_vector_sc3 :
    after (step (control (setup 0x00 0x09 0x05 0x00 0x00 0x00 0x00 0x00) 8)) lastEvent =
      some (some (.finish ⟨5, ⟨0, 8⟩⟩ 0 (List.replicate 8 0xEE))) := by decide
theorem test_vector_si2_sp1 :
    after (step (control (setup 0x21 0x0A 0x00 0xFA 0x00 0x00 0x00 0x00) 0)) lastEvent =
      some (some (.finish ⟨5, ⟨0, 0⟩⟩ 0 [])) ∧
    after (step (control (setup 0x21 0x0B 0x00 0x00 0x00 0x00 0x00 0x00) 0)) lastEvent =
      some (some (.finish ⟨5, ⟨0, 0⟩⟩ 0 [])) := by decide
theorem test_vector_ur1_rc1 :
    after (step (control (setup 0x80 0x08 0x00 0x00 0x00 0x00 0x01 0x00) 1)) State.fatal =
      some (some .unknownRequest) ∧
    after (step (control (setup 0x82 0x00 0x00 0x00 0x81 0x00 0x02 0x00) 2)) State.fatal =
      some (some .unknownRecipient) := by decide
theorem test_vector_hr3 :
    after (step (control (setup 0x81 0x06 0x00 0x22 0x00 0x00 0x22 0x00) 8)) lastEvent =
      some (some (.finish ⟨5, ⟨0, 8⟩⟩ 8 [0x06, 0xD0, 0xF1, 0x09, 0x01, 0xA1, 0x01, 0x09])) := by
  decide

/-! ### Endpoints, cancellation, attach record (95_test_vectors.md L2.3) -/

theorem test_vector_ep1 :
    after (step (start [.call (.handleMessage 1 3 (setup 0 0 0 0 0 0 0 0) [])])) State.fatal =
      some (some .unknownEndpoint) := by decide
theorem test_vector_ep3 :
    after (step (start [.call (.handleMessage 1 1 (setup 0x80 0x06 0x00 0x01 0x00 0x00 0x12 0x00)
      (List.replicate 18 0xEE))])) State.dlvq = some [⟨⟨1, ⟨0, 18⟩⟩, .queued⟩] := by decide
theorem test_vector_dl1_acquire :
    after (step (queued [⟨urb7, .queued⟩, ⟨urb8, .queued⟩] [.acquire])) State.dlvq =
      some [⟨urb7, .waiting 4⟩, ⟨urb8, .queued⟩] ∧
    after (step (queued [⟨urb7, .queued⟩, ⟨urb8, .queued⟩] [.acquire])) lastEvent =
      some (some (.callH 4 (.getResponse 7 1000))) := by decide
theorem test_vector_dl2_dl4 :
    after (step (queued [⟨⟨7, ⟨0, 4⟩⟩, .waiting 3⟩]
        [.answer 3 (.response (some [1, 2, 3, 4, 5, 6]))])) lastEvent =
      some (some (.finish ⟨7, ⟨0, 4⟩⟩ 4 [1, 2, 3, 4])) ∧
    after (step (queued [⟨⟨7, ⟨0, 4⟩⟩, .waiting 3⟩] [.answer 3 (.response (some [9]))])) lastEvent =
      some (some (.finish ⟨7, ⟨0, 4⟩⟩ 1 [9, 0, 0, 0])) := by decide
theorem test_vector_dl5_dl7 :
    after (step (queued [⟨urb7, .waiting 3⟩, ⟨urb8, .queued⟩] [.answer 3 (.response none)]))
      (fun t => (t.dlvq, t.mem)) = some ([⟨urb8, .queued⟩], []) ∧
    after (step (queued [⟨urb7, .waiting 3⟩, ⟨urb8, .queued⟩] [.acquire])) State.dlvq =
      some [⟨urb7, .waiting 3⟩, ⟨urb8, .queued⟩] := by decide
theorem test_vector_cn1_cn3 :
    after (step { queued [⟨urb7, .waiting 3⟩] [.answer 2 (.removed true)] with
      agents := [⟨2, .cancelling 1 7⟩] }) (fun t => (t.dlvq, lastEvent t)) =
      some ([], some (.returned 1 (.flag true))) ∧
    after (step { queued [⟨urb7, .waiting 3⟩] [.answer 2 (.removed false)] with
      agents := [⟨2, .cancelling 1 7⟩] }) (fun t => (t.dlvq, lastEvent t)) =
      some ([⟨urb7, .waiting 3⟩], some (.returned 1 (.flag false))) := by decide
theorem test_vector_cn1_late_answer :
    after (step (queued [⟨urb8, .queued⟩] [.answer 3 (.response (some [1, 2]))]))
      (fun t => (t.dlvq, t.mem, t.trace)) = some ([⟨urb8, .queued⟩], [], [.answered 3 (.response (some [1, 2]))]) := by decide
theorem test_vector_ik1 :
    after (step (start [.call (.handleMessage 3 2 (setup 0 0 0 0 0 0 0 0) [0xB1, 0xB2])]))
      lastEvent = some (some (.callH 1 (.handleMessage ⟨0, 2⟩ [0xB1, 0xB2]))) ∧
    after (step (suspended [⟨3, .intake ⟨3, ⟨0, 2⟩⟩⟩] [.answer 3 .handled]))
      (fun t => (lastEvent t, t.agents)) =
      some (some (.finish ⟨3, ⟨0, 2⟩⟩ 0 [0, 0]), []) := by decide
theorem test_vector_ct1 :
    after (step { queued [⟨urb7, .waiting 3⟩]
        [.call (.handleMessage 5 0 (setup 0x80 0x06 0x00 0x01 0x00 0x00 0x12 0x00) [0, 0])] with
      bufTop := 128 }) (fun t => (lastEvent t, t.dlvq)) =
      some (some (.finish ⟨5, ⟨128, 2⟩⟩ 2 [0x12, 0x01]), [⟨urb7, .waiting 3⟩]) := by decide
theorem test_vector_at1_at2 :
    after (step (start [.call .busId])) lastEvent =
      some (some (.returned 0 (.text ['2', '-', '2']))) ∧
    (fun r : AttachRecord => (r.busnum, r.devnum, r.speed, r.bInterfaceClass,
      r.bConfigurationValue)) (attachRecord Config.defaultDescriptors) = (2, 2, 2, 3, 1) := by decide

/-! ### APDUs, one step each (95_test_vectors.md L2.4 to L2.7) -/

theorem test_vector_ad21_and_in1 :
    after (step (start [.call (.apdu [0, 4, 0, 0, 1])])) (fun t => (t.fatal, lastEvent t)) =
      some (none, some (.respond 0 [0x6A, 0x80])) ∧
    after (step (start [.call (.apdu [0, 4, 0, 0])])) (fun t => (t.fatal, lastEvent t)) =
      some (some .unknownIns, some (.fatal .unknownIns)) := by decide
theorem test_vector_ve3 :
    after (step (start [.call (.apdu [0, 3, 0, 0, 0, 0, 5, 1, 2, 3, 4, 5])])) lastEvent =
      some (some (.respond 0 [0x55, 0x32, 0x46, 0x5F, 0x56, 0x32, 0x90, 0x00])) := by decide
theorem test_vector_rg1 :
    after (step (start [.call (.apdu [0, 1, 0, 0])])) lastEvent =
      some (some (.respond 0 [0x6A, 0x80])) := by decide
theorem test_vector_rg_call :
    after (exec (.u2fRegister 0 0 0 0 (s4.challenge ++ s4.application) 0) (start []))
      (fun t => (lastEvent t, t.agents.map Suspended.call)) =
      some (some (.callC 0 .newPrivateKey), [0]) := by decide
theorem test_vector_rg4 :
    lastEvent ((suspended (waiting (.approveRegistration s4 kp2 ⟨[0x11, 0x11], s4.application⟩
      handle2)) []).resume toy 3 (.registrationApproved false)) =
      some (.respond 0 [0x69, 0x85]) := by decide
theorem test_vector_rg5_rg6 :
    ((suspended (waiting (.newKey s4)) []).resume toy 3 (.keyPair none)).fatal = some .keyParse ∧
    ((suspended (waiting (.newKey s4)) []).resume toyRefuses 3 (.keyPair (some kp2))).fatal =
      some .cryptoInvalidKey := by decide
theorem test_vector_rg_seal :
    ((suspended (waiting (.newKey s4)) []).resume toy 3 (.keyPair (some kp2))).agents =
      [⟨4, .u2f 0 anApdu (.approveRegistration s4 kp2 ⟨[0x11, 0x11], s4.application⟩ handle2)⟩] := by
  decide
theorem test_vector_rg7_rg8 :
    ((suspended (waiting (.createCertificate s4 kp2 handle2)) []).resume toy 3
      (.certificate none)).fatal = some .cryptoInvalidKey ∧
    ((suspended (waiting (.createCertificate s4 kp2 handle2)) []).resume toyRefuses 3
      (.certificate (some [0xC0]))).fatal = some .cryptoInvalidKey := by decide
theorem test_vector_rg9 (handle : Bytes) (h : handle.length = 256) :
    ((suspended (waiting (.createCertificate s4 kp2 handle)) []).resume toy 3
      (.certificate (some [0xC0]))).fatal = some .handleTooLong := by
  change (registerWithCertificate toy 0 s4 kp2 handle (some [0xC0])
    ((suspended (waiting (.createCertificate s4 kp2 handle)) []).takeAnswer 3
      (.certificate (some [0xC0])))).fatal = _
  simp [registerWithCertificate, toy, Config.maxHandleLen, h, State.raiseFatal]
/-- S4: `pk` of `kp2` is `04 ‖ 00×31 02 ‖ 00×31 01`; `toy` signs by putting 0x30 before the message. -/
theorem test_vector_rg11 :
    lastEvent ((suspended (waiting (.createCertificate s4 kp2 handle2)) []).resume toy 3
      (.certificate (some [0xC0, 0xC1]))) =
    let pk : Bytes := 0x04 :: (List.replicate 31 0x00 ++ [0x02] ++ List.replicate 31 0x00 ++ [0x01])
    some (.respond 0 ([0x05] ++ pk ++ [0x23] ++ handle2 ++ [0xC0, 0xC1] ++
      ([0x30, 0x00] ++ List.replicate 32 0x17 ++ List.replicate 32 0x42 ++ handle2 ++ pk) ++
      [0x90, 0x00])) := by rfl
theorem test_vector_au2_au3 :
    openAssertion toy [] (List.replicate 64 0x42) = none ∧
    openAssertion toy [] (List.replicate 64 0x42 ++ [0x05]) = none := by decide
/-- V-AU-4: a handle of length 0, whatever the units are. -/
theorem test_vector_au4 :
    after (exec (.u2fAuthenticateEnforce 0 0x00 0x00 (s4.challenge ++ s4.application ++ [0x00]) 0)
      (start [])) lastEvent = some (some (.respond 0 [0x6A, 0x80])) := by decide
theorem test_vector_au5 :
    openAssertion toy [] (authRequest s4.application ++ [0xEE, 0xEE, 0xEE]) =
      some (s4, ⟨[0x11, 0x11], s4.application⟩) := by decide
theorem test_vector_au8_au14 :
    lastEvent (authenticate toy 0 (authRequest (List.replicate 32 0x18)) (otherP1Branch 0)
      (start [])) = some (.respond 0 [0x6A, 0x80]) ∧
    lastEvent (authenticate toy 0 (authRequest s4.application) (otherP1Branch 0) (start [])) =
      some (.respond 0 [0x67, 0x00]) := by decide
theorem test_vector_au9 :
    lastEvent (authenticate toy 0 (authRequest s4.application) (checkOnlyBranch 0) (start [])) =
      some (.respond 0 [0x69, 0x85]) := by decide
theorem test_vector_au10_approval :
    lastEvent (authenticate toy 0 (authRequest s4.application) (enforceBranch 0 anApdu)
      (start [])) =
      some (.callC 0 (.approveAuthentication ⟨[0x11, 0x11], s4.application⟩)) ∧
    lastEvent ((suspended (waiting (.approveAuthentication s4 ⟨[0x11, 0x11], s4.application⟩))
      []).resume toy 3 (.authenticationApproved true)) = some (.callC 4 .nextCounterId) := by
  decide
theorem test_vector_au10_au13 :
    lastEvent ((suspended (waiting (.nextCounter s4 ⟨[0x11, 0x11], s4.application⟩)) []).resume toy
      3 (.counter 0x00000010)) =
      some (.respond 0 ([0x01, 0x00, 0x00, 0x00, 0x10] ++ ([0x30] ++ List.replicate 32 0x17 ++
        [0x01, 0x00, 0x00, 0x00, 0x10] ++ List.replicate 32 0x42) ++ [0x90, 0x00])) ∧
    lastEvent ((suspended (waiting (.nextCounter s4 ⟨[0x11, 0x11], s4.application⟩)) []).resume toy
      3 (.counter 0xFFFFFFFF)) =
      some (.respond 0 ([0x01, 0xFF, 0xFF, 0xFF, 0xFF] ++ ([0x30] ++ List.replicate 32 0x17 ++
        [0x01, 0xFF, 0xFF, 0xFF, 0xFF] ++ List.replicate 32 0x42) ++ [0x90, 0x00])) := by decide
theorem test_vector_au11 :
    lastEvent ((suspended (waiting (.approveAuthentication s4 ⟨[0x11, 0x11], s4.application⟩))
      []).resume toy 3 (.authenticationApproved false)) = some (.respond 0 [0x69, 0x85]) := by
  decide
theorem test_vector_au18 :
    ((suspended (waiting (.nextCounter s4 ⟨[0x11, 0x11], s4.application⟩)) []).resume toyRefuses
      3 (.counter 5)).fatal = some .cryptoInvalidKey := by decide

/-! ### The fatal state and RESET (95_test_vectors.md L2.8) -/

theorem test_vector_ft1 :
    after (step (stopped [.call (.apdu [0, 3, 0, 0])])) (fun t => (t.fatal, t.trace)) =
      some (some .unknownRequest, [.call (.apdu 0 [0, 3, 0, 0])]) := by decide
theorem test_vector_ft3 :
    after (step { queued [⟨urb7, .waiting 3⟩] [.answer 3 (.response (some [1]))] with
      fatal := some .unknownIns }) (fun t => (t.dlvq, t.trace, t.mem)) =
      some ([⟨urb7, .waiting 3⟩], [.answered 3 (.response (some [1]))], []) := by decide
/-- R34, R301: after RESET an answer to a call of before is discarded, and in the trace. -/
theorem test_answer_after_reset_is_recorded :
    after (step (start [.answer 3 (.keyPair none)])) (fun t => (t.fatal, t.trace)) =
      some (none, [.answered 3 (.keyPair none)]) := by decide
/-- R25: a fatal error ends the latches of another suspended U2F call; an intake stays suspended. -/
theorem test_fatal_ends_apdu_latches :
    after (step { suspended (waiting (.newKey s4) ++ [⟨2, .intake urb7⟩]) [.call (.apdu [0, 4, 0, 0])]
      with fresh := 5 }) (fun t => (t.fatal, t.agents)) =
      some (some .unknownIns, [⟨2, .intake urb7⟩]) := by decide
theorem test_vector_ft4_ft5 :
    after (step { queued [⟨urb7, .waiting 3⟩, ⟨urb8, .queued⟩] [.reset (List.replicate 32 1)] with
      fatal := some .invalidStringIndex }) (fun t => (t.fatal, t.dlvq, t.sk)) =
      some (none, [], List.replicate 32 1) := by decide

/-! ### Named premises (R74, R235, R311, R315) -/

/-- The trace of two counter calls, sequential or overlapping, answered `c` then `d`. -/
def twoCounters (overlap : Bool) (c d : BitVec 32) : State :=
  { start [] with
    trace :=
      if overlap then [.callC 1 .nextCounterId, .callC 2 .nextCounterId,
        .answered 1 (.counter c), .answered 2 (.counter d)]
      else [.callC 1 .nextCounterId, .answered 1 (.counter c), .callC 2 .nextCounterId,
        .answered 2 (.counter d)] }

/-- Sequential counter calls may not fall back (R235). -/
theorem test_sequential_counters_may_not_fall :
    ¬CounterNonDecreasing (twoCounters false 6 5) := fun h =>
  absurd (h 6 5 ⟨1, 2, 0, 1, 2, 3, by decide, by decide, by decide, rfl, rfl, rfl, rfl⟩) (by decide)
/-- Overlapping ones may be taken in either order (R74). -/
theorem test_overlapping_counters_are_unordered :
    CounterNonDecreasing (twoCounters true 6 5) ∧ CounterNonDecreasing (twoCounters true 5 6) := by
  have h : ∀ a b c d, ¬CounterPrecedes (twoCounters true a b).trace c d := by
    rintro a b c d ⟨t, u, -, i, j, k, -, hij, -, -, hi, hj, -⟩
    match i, j with
    | 0, _ => cases hi
    | 1, _ => cases hi
    | i + 2, 0 => omega
    | i + 2, 1 => omega
    | i + 2, 2 => cases hj
    | i + 2, 3 => cases hj
    | i + 2, j + 4 => cases hj
  exact ⟨fun c d hp => absurd hp (h _ _ c d), fun c d hp => absurd hp (h _ _ c d)⟩
/-- With nothing pending and no input to come, no later state has anything pending. -/
theorem run_idle (n : Nat) (s t : State) (hi : s.inputs = []) (hq : s.dlvq = [])
    (ha : s.agents = []) (h : s.run n = some t) : t.dlvq = [] ∧ t.agents = [] := by
  induction n with
  | zero => cases h; exact ⟨hq, ha⟩
  | succ n ih =>
    simp only [State.run, step, hi, State.idle] at h
    cases hf : s.fatal with
    | none => rw [hf] at h; exact ih h
    | some r => rw [hf] at h; cases h

/-- FAIR_H holds of a run whose intake returns, and an answer of another kind does not do (R311). -/
theorem test_fair_answers_are_of_the_right_kind :
    FairH (suspended [⟨3, .intake urb7⟩] [.answer 3 .handled]) ∧
    ¬FairH (suspended [⟨3, .intake urb7⟩] [.answer 3 (.removed true)]) := by
  refine ⟨?_, ?_⟩
  · intro n t h _
    cases n with
    | zero =>
      cases h
      refine ⟨fun e he => (List.not_mem_nil he).elim, fun w hw _ => ?_⟩
      cases List.mem_singleton.1 hw
      exact ⟨.handled, rfl, List.mem_singleton.2 rfl⟩
    | succ n =>
      obtain ⟨hq, ha⟩ := run_idle n _ t rfl rfl rfl h
      rw [hq, ha]
      exact ⟨fun e he => (List.not_mem_nil he).elim, fun w hw => (List.not_mem_nil hw).elim⟩
  · intro h
    obtain ⟨a, hk, ha⟩ := (h 0 _ rfl rfl).2 _ (List.mem_singleton.2 rfl) rfl
    cases List.mem_singleton.1 ha
    cases hk

/-- P3, steps 6 to 10: a delivery waits, another request is fatal, H answers the delivery's call, RESET. -/
def answeredWhileFatal : State :=
  queued [⟨urb7, .waiting 3⟩]
    [.call (.apdu [0, 4, 0, 0]), .answer 3 (.response (some [1])), .reset (List.replicate 32 1)]

/-- H has answered every call of P3 although the fatal block discarded one answer and kept the entry, so
FAIR_H holds; it does not hold of a delivery whose call is never answered (R273, R311). -/
theorem test_fair_h_counts_an_answer_that_a_fatal_block_discards :
    FairH answeredWhileFatal ∧ ¬FairH (queued [⟨urb7, .waiting 3⟩] []) := by
  refine ⟨?_, ?_⟩
  · intro n t h hf
    match n with
    | 0 =>
      cases h
      refine ⟨fun e he c hc => ?_, fun w hw => (List.not_mem_nil hw).elim⟩
      cases List.mem_singleton.1 he
      cases hc
      exact ⟨some [1], List.mem_cons_of_mem _ (List.mem_cons_self ..)⟩
    | 1 => cases h; cases hf
    | 2 => cases h; cases hf
    | n + 3 =>
      obtain ⟨hq, ha⟩ := run_idle n _ t rfl rfl rfl h
      rw [hq, ha]
      exact ⟨fun e he => (List.not_mem_nil he).elim, fun w hw => (List.not_mem_nil hw).elim⟩
  · intro h
    obtain ⟨r, hr⟩ := (h 0 _ rfl rfl).1 _ (List.mem_singleton.2 rfl) 3 rfl
    exact List.not_mem_nil hr
/-- FAIR_C covers a call that the run itself makes: a REGISTER with no answer to come (R311). -/
theorem test_fair_c_covers_later_calls :
    ¬FairC (start [.call (.apdu ([0, 1, 0, 0, 0, 0, 64] ++ s4.challenge ++ s4.application))]) := by
  intro h
  obtain ⟨a, -, ha⟩ := h 1 _ rfl _ (List.mem_singleton.2 rfl) rfl
  exact List.not_mem_nil ha
/-- After a true cancellation of a WAITING delivery the run is at its end although H's `get_response`
answer is still to come (R314 point 3; the model's choice, log 26); a pending intake keeps it open. -/
theorem test_abandoned_call_does_not_keep_a_run_open :
    after (step { queued [⟨urb7, .waiting 3⟩]
        [.answer 2 (.removed true), .answer 3 (.response none)] with
      agents := [⟨2, .cancelling 1 7⟩] }) State.atEnd = some true ∧
    after (step { queued [⟨urb7, .waiting 3⟩] [.answer 2 (.removed true)] with
      agents := [⟨2, .cancelling 1 7⟩, ⟨1, .intake urb8⟩] }) State.atEnd = some false := by decide
/-- A state whose SK is not the client's key is no clean start (R315). -/
theorem test_clean_start_needs_the_clients_key :
    ¬CleanStart { State.reset with sk := List.replicate 32 0, trace := [.reset [1]] } := by
  intro h
  exact absurd h.key (by decide)

/-! ### Witnesses: a concrete input for the hypotheses of each statement -/

/-- DescriptorRequestsReplyTheirImage, StringRequestRepliesOrIsFatal,
NoOpRequestsFinishAndStatusIsOneByte, FatalControlRowsRaise, ControlUrbCompletesInCheckOrder,
DeliveryIsQueuedAtTheTail, UnknownEndpointAndUnknownInsAreFatal, AttachQueriesReturnTheRecord,
VersionResponds, AuthenticateRowsAnswer. -/
theorem witness_running : (start []).fatal = none ∧ (start []).mem.wf ∧
    ({ start [] with mem := [(3, 0xEE)] } : State).mem.wf := by decide
/-- Every statement about distinct codes: the defaults (00_scope.md R8), and other ones. -/
theorem witness_distinct_codes : std.Distinct ∧ otherCodes.Distinct := by decide
/-- StringRequestRepliesOrIsFatal, both clauses where they meet. -/
theorem witness_string_indices :
    (0x05 : Byte).toNat ≤ 5 ∧ 5 < (0x06 : Byte).toNat ∧ 5 < (0xFF : Byte).toNat := by decide
/-- ControlUrbCompletesInCheckOrder, both outcomes. -/
theorem witness_control_outcomes :
    controlOutcome (start []).params (setup 0x80 0x06 0x05 0x03 0 0 0 0).fields =
      .ok (Rom.string 5) ∧
    controlOutcome (start []).params (setup 0x80 0x06 0x06 0x03 0 0 0 0).fields =
      .error .invalidStringIndex :=
  ⟨rfl, rfl⟩
/-- EndpointAloneSelectsTheUrbRow: each clause, the last at its lower end. -/
theorem witness_endpoints : (0 : Nat) = 0 ∧ (1 : Nat) = 1 ∧ (2 : Nat) = 2 ∧ 3 ≤ 3 := by decide
/-- ApduBodyFormsDecode: data of the least and the greatest length. -/
theorem witness_data_lengths :
    1 ≤ ([0xAA] : Bytes).length ∧ (List.replicate 65535 (0 : Byte)).length ≤ 65535 :=
  ⟨Nat.le_refl 1, Nat.le_of_eq List.length_replicate⟩
/-- MalformedApdusExactly: a malformed and a well-formed APDU. -/
theorem witness_malformed :
    (decodeApdu [0, 3, 0]).toOption = none ∧ (decodeApdu [0, 3, 0, 0]).toOption ≠ none := by decide
/-- DecodeOfEncodeIsTheInstruction: a well-formed term of each format; witness_request_lengths has the
longest request. -/
theorem witness_well_formed :
    WellFormed std (.fatalUnknownRecipient urb7 noAttrs 31 0xFF 0xFFFF) = true ∧
    WellFormed std (.fatalUnknownEndpoint urb7 (setup 0 0 0 0 0 0 0 0) 3) = true ∧
    WellFormed std (.cancel 0 7) = true ∧
    WellFormed std (.u2fVersion 0 0 0 0 [0xAA] 0xFFFF) = true := by decide
/-- DecodedInstructionsAreWellFormed. -/
theorem witness_decoded :
    decode (.handleMessage urb7 0 (setup 0x82 0 0 0 0 0 0 0)) =
      .ok (.urbControl urb7 (setup 0x82 0 0 0 0 0 0 0)) := rfl
/-- UnconsultedSetupFieldsChangeNothing: packets that differ in kind, direction, wIndex and wLength; for
STRING also with the same index, for DEVICE with another one. -/
theorem witness_unconsulted :
    let b := (setup 0x80 0x06 0x02 0x03 0x09 0x04 0xFF 0x00).fields
    let c := (setup 0x60 0x06 0x02 0x03 0x00 0x00 0x01 0x00).fields
    let d := (setup 0x80 0x06 0x00 0x01 0x00 0x00 0x12 0x00).fields
    let e := (setup 0x00 0x06 0x05 0x01 0x34 0x12 0x01 0x00).fields
    (b.recipient = c.recipient ∧ b.bRequest = c.bRequest ∧ b.descType = c.descType ∧
      b.descIndex = c.descIndex ∧ classify std b = .getDescriptorString) ∧
    (d.recipient = e.recipient ∧ d.bRequest = e.bRequest ∧ d.descType = e.descType ∧
      d.descIndex ≠ e.descIndex ∧ classify std d = .getDescriptorDevice) := by decide
/-- The encodings of the EP0 rows: a packet for each clause of DescriptorRequestsReplyTheirImage,
StringRequestRepliesOrIsFatal and NoOpRequestsFinishAndStatusIsOneByte (30_encoding.md R123). -/
theorem witness_row_packets :
    let p := fun (t q h : Byte) => setup t q 0x00 h 0x00 0x00 0x12 0x00
    ((p 0x80 0x06 0x01).b1 = std.reqGetDescriptor ∧
      (p 0x80 0x06 0x01).fields.recipient = std.recDevice ∧
      (p 0x80 0x06 0x01).b3 = Config.descDevice) ∧
    (p 0x80 0x06 0x02).b3 = Config.descConfiguration ∧
    (p 0x80 0x06 0x03).b3 = Config.descString ∧
    ((p 0x81 0x06 0x22).fields.recipient = std.recInterface ∧
      (p 0x81 0x06 0x22).b3 = Config.descHidReport) ∧
    (p 0x00 0x09 0x00).b1 = std.reqSetConfiguration ∧
    (p 0x80 0x00 0x00).b1 = std.reqGetStatus ∧
    (p 0x21 0x0A 0x00).b1 = std.reqSetIdle ∧
    (p 0x21 0x0B 0x00).b1 = std.reqSetProtocol := by decide
/-- FatalControlRowsRaise and UnknownEndpointAndUnknownInsAreFatal: a value of each clause. -/
theorem witness_fatal_encodings :
    (0x04 : Byte) ∉ [Config.descDevice, Config.descConfiguration, Config.descString] ∧
    (0x01 : Byte) ∉ [std.reqGetStatus, std.reqGetDescriptor, std.reqSetConfiguration] ∧
    (0x21 : Byte) ≠ Config.descHidReport ∧
    (0x01 : Byte) ∉ [std.reqGetDescriptor, std.reqSetIdle, std.reqSetProtocol] ∧
    (setup 0x82 0 0 0 0 0 0 0).fields.recipient ∉ [std.recDevice, std.recInterface] ∧
    (setup 0x9F 0 0 0 0 0 0 0).fields.recipient ∉ [std.recDevice, std.recInterface] ∧
    (setup 0x02 0 0 0 0 0 0 0).fields.recipient = std.recEndpoint ∧
    3 ∉ [0, 1, 2] ∧ (0x04 : Byte) ∉ ([0x01, 0x02, 0x03] : Bytes) := by decide
/-- OnlyTheHeadAcquiresTheLock: each clause. -/
theorem witness_acquire :
    ((queued [⟨urb7, .queued⟩, ⟨urb8, .queued⟩] [.acquire]).dlvq =
      ⟨urb7, .queued⟩ :: [⟨urb8, .queued⟩] ∧
      ∀ e ∈ ([⟨urb8, .queued⟩] : List DlvEntry), e.phase = .queued) ∧
    (queued [⟨urb7, .waiting 3⟩, ⟨urb8, .queued⟩] [.acquire]).lockHeld = true ∧
    (queued [] [.acquire]).dlvq = [] := by decide
/-- DeliveryCompletesWithData and DeliveryTimesOutSilently. -/
theorem witness_delivery :
    let s := queued [⟨urb7, .waiting 3⟩] [.answer 3 (.response (some [1]))]
    let t := queued [⟨urb7, .waiting 3⟩] [.answer 3 (.response none)]
    s.fatal = none ∧ s.mem.wf ∧ s.dlvq = ⟨urb7, .waiting 3⟩ :: [] ∧
      s.inputs = .answer 3 (.response (some [1])) :: [] ∧ t.fatal = none ∧
      t.dlvq = ⟨urb7, .waiting 3⟩ :: [] ∧ t.inputs = .answer 3 (.response none) :: [] := by decide
/-- AbandonedAnswersAreDiscarded: an abandoned call of a running block, and a fatal block. -/
theorem witness_abandoned :
    let s := queued [⟨urb8, .waiting 2⟩] [.answer 3 (.response (some [1]))]
    s.inputs = .answer 3 (.response (some [1])) :: [] ∧
      (∀ e ∈ s.dlvq, e.phase ≠ .waiting 3) ∧ s.waitingFor 3 = none ∧
      (stopped [.answer 3 .handled]).fatal ≠ none ∧
      (stopped [.answer 3 .handled]).inputs = .answer 3 .handled :: [] := by decide
/-- IntakeHandsOverThenFinishes and CancellationAsksThenRemoves, the second clauses. -/
theorem witness_intake_and_cancel :
    let s := suspended [⟨3, .intake urb7⟩] [.answer 3 .handled]
    let t := suspended [⟨3, .cancelling 1 7⟩] [.answer 3 (.removed true)]
    s.fatal = none ∧ s.waitingFor 3 = some (.intake urb7) ∧ s.inputs = .answer 3 .handled :: [] ∧
      t.fatal = none ∧ t.waitingFor 3 = some (.cancelling 1 7) ∧
      t.inputs = .answer 3 (.removed true) :: [] := by decide
/-- MalformedApduResponds6A80. -/
theorem witness_malformed_call :
    (start [.call (.apdu [0, 4, 0, 0, 1])]).fatal = none ∧
    (start [.call (.apdu [0, 4, 0, 0, 1])]).inputs = .call (.apdu [0, 4, 0, 0, 1]) :: [] ∧
    decodeApdu [0, 4, 0, 0, 1] = .error .noMarker := ⟨rfl, rfl, rfl⟩
/-- RegisterChecksLengthThenAsksForAKey: both clauses, the first on either side of 64. -/
theorem witness_register_lengths :
    (start []).fatal = none ∧ (List.replicate 63 (0 : Byte)).length ≠ 64 ∧
    (List.replicate 65 (0 : Byte)).length ≠ 64 ∧
    (s4.challenge ++ s4.application).length = 64 := by decide
/-- RegisterSealsThenAsksForApproval, RegisterDeniedOrCertified, RegisterSignsAndResponds,
EnforceDeniedOrCounted, AssertionSignsTheCounterVerbatim: the agent each waits for. -/
theorem witness_u2f_waits (w : U2fWait) :
    (suspended (waiting w) []).fatal = none ∧
    (suspended (waiting w) []).waitingFor 3 = some (.u2f 0 anApdu w) := ⟨rfl, rfl⟩
/-- RegisterResponseLayout: the greatest handle. -/
theorem witness_layout : (List.replicate 255 (0 : Byte)).length ≤ 255 :=
  Nat.le_of_eq List.length_replicate
/-- RegisteredHandleAuthenticates and AssertionVerifiesUnderTheRegisteredKey: lawful units. -/
theorem witness_lawful : toy.Lawful where
  privDec_privEnc kp := by simp [toy]
  openBox_sealBox sk kh n b h1 h2 h := by
    simp only [toy] at h ⊢
    rw [if_pos ⟨h1, Nat.le_of_eq h2⟩] at h
    cases h
    have : (BitVec.ofNat 8 kh.privateKey.length).toNat = kh.privateKey.length := by
      simp only [BitVec.toNat_ofNat]
      omega
    simp [this]
  openBox_empty _ := rfl
/-- AssertionVerifiesUnderTheRegisteredKey: what `toy` signs verifies. -/
theorem witness_sign : SignLaw toy toyVerify := by
  intro kp msg r sig h
  cases h
  rfl
/-- RegisteredHandleAuthenticates: the handle of `kp2` for the application of S4. -/
theorem witness_registered :
    (toy.privEnc kp2).length ≤ 200 ∧ s4.application.length = 32 ∧ s4.challenge.length = 32 ∧
    handle2.length ≤ 255 ∧ toy.sealBox [] (keyHandleFor toy kp2 s4) [] = some handle2 := by decide
/-- AssertionVerifiesUnderTheRegisteredKey: the state. -/
theorem witness_counter_wait :
    let s := suspended (waiting (.nextCounter s4 (keyHandleFor toy kp2 s4))) []
    s.fatal = none ∧ s.waitingFor 3 = some (.u2f 0 anApdu (.nextCounter s4 (keyHandleFor toy kp2 s4))) :=
  ⟨rfl, rfl⟩
/-- ConformantSealNeverRaisesHandleTooLong: units that fit; `toyLong` shows the premise is needed. -/
theorem witness_conformant : ConformantSeal toy := by
  intro sk kh n b h
  simp only [toy] at h
  split at h
  · cases h
    simp only [List.length_cons, List.length_append, Config.maxHandleLen]
    omega
  · cases h
theorem witness_not_conformant : ¬ConformantSeal toyLong := by
  intro h
  have := h [] ⟨[], []⟩ [] _ rfl
  rw [List.length_replicate] at this
  exact absurd this (by decide)
/-- ConformantSealNeverRaisesHandleTooLong: a state whose suspended REGISTER holds a sealing. -/
theorem witness_sealed :
    HandlesSealed toy (suspended (waiting (.createCertificate s4 kp2 handle2)) []) ∧
    (suspended (waiting (.createCertificate s4 kp2 handle2)) []).fatal ≠ some .handleTooLong := by
  refine ⟨?_, by decide⟩
  intro w hw
  cases List.mem_singleton.1 hw
  exact ⟨[], [], rfl⟩
/-- ApduRowsLeaveTheRestAlone: an APDU row that answers a next state. -/
theorem witness_apdu_row :
    encode std (.u2fVersion 5 0 0 0 [] 0) = .apdu 5 [0, 3, 0, 0] ∧
    (after (exec (.u2fVersion 5 0 0 0 [] 0) (start [])) State.fatal).isSome = true := ⟨rfl, rfl⟩
/-- StepRunsTheDecodedInstruction. -/
theorem witness_step_decodes :
    let s := start [.call (.handleMessage 7 1 (setup 0 0 0 0 0 0 0 0) [1, 2])]
    s.inputs = .call (.handleMessage 7 1 (setup 0 0 0 0 0 0 0 0) [1, 2]) :: [] ∧
      decode (s.arriving (.handleMessage 7 1 (setup 0 0 0 0 0 0 0 0) [1, 2])) =
        .ok (.urbDeliver ⟨7, ⟨0, 2⟩⟩ (setup 0 0 0 0 0 0 0 0)) := ⟨rfl, rfl⟩
/-- AnswersReachTheirAgentThroughStep. -/
theorem witness_answer_input :
    (suspended [⟨3, .intake urb7⟩] [.answer 3 .handled]).inputs = .answer 3 .handled :: [] := rfl
/-- NoInputWaitsOrIsTheFatalFault, both clauses. -/
theorem witness_no_input :
    (start []).inputs = [] ∧ (start []).fatal = none ∧ (stopped []).inputs = [] ∧
    (stopped []).fatal = some .unknownRequest := by decide
/-- NothingRunsWhileFatal: a fatal state whose next input is a call, and its next state. -/
theorem witness_fatal_step :
    let s := stopped [.call (.apdu [0, 3, 0, 0])]
    s.fatal ≠ none ∧ (after (step s) State.fatal).isSome = true ∧
      ∀ key more, s.inputs ≠ .reset key :: more := by
  refine ⟨by decide, by decide, ?_⟩
  intro key more h
  cases h
/-- ResetClearsTheBlock, and ResetStateIsACleanStart with the least key. -/
theorem witness_reset_input :
    (stopped [.reset (List.replicate 32 1)]).inputs = .reset (List.replicate 32 1) :: [] ∧
    32 ≤ (List.replicate 32 (1 : Byte)).length ∧
    (after (step (stopped [.reset (List.replicate 32 1)])) State.fatal).isSome = true := by decide
/-- AssertionOpensExactly: a request that opens, whose length byte is not 0. -/
theorem witness_opens :
    (openAssertion toy [] (authRequest s4.application)).isSome = true ∧
    (authRequest s4.application).getD 64 0 ≠ 0 := by decide
/-- FatalOrPendingRunsAreNotAtTheirEnd: each of the three. -/
theorem witness_not_at_end :
    (stopped []).fatal ≠ none ∧ (queued [⟨urb7, .queued⟩] []).dlvq ≠ [] ∧
    (suspended [⟨3, .intake urb7⟩] []).agents ≠ [] := by decide
/-- EveryStepKeepsInv: a state with a delivery pending, an agent suspended and a byte in a buffer. -/
theorem witness_inv : Inv { queued [⟨urb7, .waiting 3⟩, ⟨urb8, .queued⟩]
      [.answer 3 (.response (some [1]))] with
    agents := [⟨2, .intake ⟨9, ⟨128, 0⟩⟩⟩], mem := [(5, 0xEE)] } where
  memory := by decide
  latch := rfl
  queue := by
    intro e he
    cases List.mem_singleton.1 he
    rfl
  buffers := ⟨by decide, by decide⟩
  calls := ⟨by decide, by decide, by
    intro e he t ht
    rcases List.mem_cons.1 he with rfl | he
    · cases ht; decide
    · cases List.mem_singleton.1 he; cases ht⟩
/-- EveryStepKeepsHandlesSealed: reset with a REGISTER as the next input. -/
theorem witness_handles_sealed :
    HandlesSealed Config.units (start [.call (.apdu [0, 1, 0, 0])]) ∧
    (after (step (start [.call (.apdu [0, 1, 0, 0])])) State.fatal).isSome = true := by
  refine ⟨?_, by decide⟩
  intro w hw
  cases hw
/-- OnlyResetWritesSkOrClearsFatal, StepsTakeOneInputAndOnlyAddEvents, DeliveriesKeepArrivalOrder: a
step that is no RESET and answers a next state. -/
theorem witness_no_reset_step :
    let s := start [.call (.handleMessage 7 1 (setup 0 0 0 0 0 0 0 0) [1, 2])]
    (after (step s) State.fatal).isSome = true ∧ ∀ key more, s.inputs ≠ .reset key :: more := by
  refine ⟨by decide, ?_⟩
  intro key more h
  cases h
/-- EveryResponseEndsInAnEmittedStatusWord: a step that responds. -/
theorem witness_response :
    after (step (start [.call (.apdu [0, 1, 0, 0])])) lastEvent =
      some (some (.respond 0 [0x6A, 0x80])) := by decide
/-- StepsWriteOnlyTheAnsweredBuffer: a byte below the next free place that a step changes. -/
theorem witness_changed_byte :
    let s := queued [⟨urb7, .waiting 3⟩] [.answer 3 (.response (some [0xAB]))]
    0 < s.bufTop ∧ s.mem.read 0 = 0x00 ∧ after (step s) (fun t => t.mem.read 0) = some 0xAB := by
  decide
/-- FinishFiresOnlyForItsUrb: a FINISH of each of the three kinds. -/
theorem witness_finishes :
    after (step (control (setup 0x80 0 0 0 0 0 0 0) 0)) lastEvent =
      some (some (.finish ⟨5, ⟨0, 0⟩⟩ 0 [])) ∧
    after (step (queued [⟨⟨7, ⟨0, 1⟩⟩, .waiting 3⟩] [.answer 3 (.response (some [9]))])) lastEvent =
      some (some (.finish ⟨7, ⟨0, 1⟩⟩ 1 [9])) ∧
    after (step (suspended [⟨3, .intake ⟨7, ⟨0, 0⟩⟩⟩] [.answer 3 .handled])) lastEvent =
      some (some (.finish ⟨7, ⟨0, 0⟩⟩ 0 [])) := by decide

end Sys2Proof.Tests
end

section
/-! The statements of 00_scope.md: the words of the opcode table, read through the encoder's round trip,
and the configuration block at any value of its open parameters. -/

namespace Sys2Proof

open Machine

/-- The default codes satisfy R106's premise, so the round trips of `Laws.Encoding` hold at them. -/
theorem Config.defaultCodes_distinct : Config.defaultCodes.Distinct := by decide

/-! ### Packets and words of the opcode table (30_encoding.md R100 to R112) -/

section
variable {q : RequestCodes} (hq : q.Distinct) (x : Xfer)
include hq

/-- The packet is the encoding of GET_DESCRIPTOR(STRING, 2), device to host, with no length. -/
theorem decodeRequest_getDescriptorString_packet :
    decodeRequest q (.handleMessage x 0
      ⟨(0b100 : BitVec 3) ++ q.recDevice, q.reqGetDescriptor, 0x02, 0x03, 0, 0, 0, 0⟩) =
        .ok (.getDescriptorString x ⟨0, 1, 0, 0⟩ 0x02) :=
  Laws.Encoding.getDescriptorString x ⟨0, 1, 0, 0⟩ 0x02 q hq rfl

/-- The packet is the encoding of SET_IDLE with value 0, of kind 1 (class), host to device. -/
theorem decodeRequest_setIdle_packet :
    decodeRequest q (.handleMessage x 0
      ⟨(0b001 : BitVec 3) ++ q.recInterface, q.reqSetIdle, 0, 0, 0, 0, 0, 0⟩) =
        .ok (.setIdle x ⟨1, 0, 0, 0⟩ 0x0000) :=
  Laws.Encoding.setIdle x ⟨1, 0, 0, 0⟩ 0x0000 q hq rfl

end

/-- An endpoint word gives the row its URB decodes to. -/
theorem decodeTableWord_of_endpoint {w : Nat} {i : Instr} (hw : w < 0x100)
    (h : decode ((tableCall 32 w).arrived 0 0) = .ok i) : decodeTableWord 32 w = some i := by
  simp [decodeTableWord, hw, h]

/-- Any other word gives the request its call carries, at the default codes. -/
theorem decodeTableWord_of_request {nbits w : Nat} {i : Instr} (hw : ¬(nbits = 32 ∧ w < 0x100))
    (h : decodeRequest Config.defaultCodes ((tableCall nbits w).arrived 0 0) = .ok i) :
    decodeTableWord nbits w = some i := by
  simp only [decodeTableWord, if_neg hw, h]

/-- A 24-bit word is an APDU header, whose row is its own request. -/
theorem decodeTableWord_of_header {w : Nat} {i : Instr} (hi : i.request Config.defaultCodes = i)
    (h : decode ((tableCall 24 w).arrived 0 0) = .ok i) : decodeTableWord 24 w = some i := by
  apply decodeTableWord_of_request (by omega)
  rw [decodeRequest, h, Except.map, hi]

/-- Settles O9: each packet and each word is an encoding, so the encoder's round trip gives its row. -/
theorem tableWordsDecode : Obligations.TableWordsDecode := by
  unfold Obligations.TableWordsDecode
  have hd := Config.defaultCodes_distinct
  refine ⟨fun q x hq => ⟨decodeRequest_getDescriptorString_packet hq x,
    decodeRequest_setIdle_packet hq x⟩, ?_, ?_, ?_, ?_, ?_⟩
  · exact decodeTableWord_of_request (by decide) (decodeRequest_getDescriptorString_packet hd _)
  · exact decodeTableWord_of_request (by decide) (decodeRequest_setIdle_packet hd _)
  · exact decodeTableWord_of_endpoint (by decide) (Laws.Encoding.urbDeliver _ _ _ hd rfl)
  · exact decodeTableWord_of_header rfl
      (Laws.Encoding.u2fAuthenticateCheckOnly 0 0x00 0x00 [] 0 _ hd rfl)
  · exact decodeTableWord_of_header rfl (Laws.Encoding.u2fVersion 0 0x00 0x00 0x00 [] 0 _ hd rfl)

/-! ### The configuration block (20_memory.md R53 to R58) -/

namespace Machine

section
variable (p : DescriptorParams)

/-- No parameter changes the length of the interface, HID and endpoint descriptors: 9 + 9 + 7 + 7. -/
theorem Rom.configurationTail_length : (Rom.configurationTail p).length = 32 := rfl

/-- So wTotalLength is 41 at every value of the parameters. -/
theorem Rom.configuration_eq :
    Rom.configuration p =
      [0x09, 0x02, 0x29, 0x00, 0x01, p.cfgValue, p.cfgString, p.cfgAttributes, p.cfgMaxPower] := by
  rw [Rom.configuration, Rom.configurationTail_length]
  rfl

theorem Rom.configurationBlock_length : (Rom.configurationBlock p).length = 41 := by
  rw [Rom.configurationBlock, List.length_append, Rom.configuration_eq,
    Rom.configurationTail_length]
  rfl

end

end Machine

/-- Settles O11: the configuration descriptor with its computed total length, then the other four
descriptors byte by byte; the state after reset takes the defaults. -/
theorem configurationBlockImage : Obligations.ConfigurationBlockImage := by
  unfold Obligations.ConfigurationBlockImage
  refine ⟨fun p => ⟨?_, Rom.configurationBlock_length p⟩, rfl, Config.defaultCodes_distinct⟩
  rw [Rom.configurationBlock, Rom.configuration_eq]
  rfl

end Sys2Proof
end

section
/-! The statements of 10_state.md: what every step keeps, derived from the inversion lemmas of
Laws/Exec.lean, and the reset state. -/

namespace Sys2Proof

open Machine

namespace Machine

/-! ### The invariant, one rule per way the queue and the agents change -/

/-- Deliveries and agents may leave, and the free place and the next number may rise. -/
theorem Inv.mono {s t : State} (hi : Inv s) (hmem : t.mem.wf) (hsetup : t.setup = none)
    (hdlvq : t.dlvq.Sublist s.dlvq) (hagents : t.agents.Sublist s.agents)
    (htop : s.bufTop ≤ t.bufTop) (hfresh : s.fresh ≤ t.fresh) : Inv t where
  memory := hmem
  latch := hsetup
  queue e he := hi.queue e (hdlvq.tail.subset he)
  buffers :=
    ⟨fun e he => (hi.buffers.1 e (hdlvq.subset he)).trans htop, hi.buffers.2.sublist hdlvq⟩
  calls := by
    obtain ⟨hdistinct, hmade, hwaits⟩ := hi.calls
    have hcalls := hagents.map Suspended.call
    refine ⟨hdistinct.sublist hcalls, fun w hw => (hmade w (hagents.subset hw)).trans_le hfresh,
      fun e he c hc => ?_⟩
    obtain ⟨hlt, hfree⟩ := hwaits e (hdlvq.subset he) c hc
    exact ⟨hlt.trans_le hfresh, fun hw => hfree (hcalls.subset hw)⟩

/-- The transfer lies above every pending delivery and below the next free place. -/
def AboveQueue (s : State) (x : Xfer) : Prop :=
  (∀ e ∈ s.dlvq, e.xfer.buf.base + e.xfer.buf.len ≤ x.buf.base) ∧
    x.buf.base + x.buf.len ≤ s.bufTop

section
variable {s : State} (hi : Inv s)
include hi

theorem Inv.withInputs (inputs : List Input) : Inv { s with inputs := inputs } :=
  hi.mono hi.memory hi.latch (.refl _) (.refl _) le_rfl le_rfl

/-- Also `respond`, `returnT`, `finish` and `discard`, which only record an event. -/
theorem Inv.emit (e : Event) : Inv (s.emit e) :=
  hi.mono hi.memory hi.latch (.refl _) (.refl _) le_rfl le_rfl

theorem Inv.drawn : Inv s.drawn :=
  hi.mono hi.memory hi.latch (.refl _) (.refl _) le_rfl le_rfl

theorem Inv.accept (c : Call) : Inv (s.accept c) :=
  hi.mono (Memory.wf_writeBytes hi.memory _ _) hi.latch (.refl _) (.refl _)
    (Nat.le_add_right _ _) (Nat.le_succ _)

theorem Inv.copyOut (x : Xfer) (data : Bytes) : Inv (s.copyOut x data) :=
  hi.mono (Memory.wf_writeBytes hi.memory _ _) hi.latch (.refl _) (.refl _) le_rfl le_rfl

theorem Inv.reply (x : Xfer) (data : Bytes) : Inv (s.reply x data) :=
  hi.mono (Memory.wf_writeBytes hi.memory _ _) rfl (.refl _) (.refl _) le_rfl le_rfl

theorem Inv.raiseFatal (r : FatalReason) : Inv (s.raiseFatal r) :=
  hi.mono hi.memory rfl (.refl _) List.filter_sublist le_rfl le_rfl

theorem Inv.doReset (key : Bytes) : Inv (s.doReset key) :=
  hi.mono hi.memory rfl (List.nil_sublist _) (List.nil_sublist _) le_rfl le_rfl

theorem Inv.takeAnswer (t : Tag) (a : Answer) : Inv (s.takeAnswer t a) :=
  hi.mono hi.memory hi.latch (.refl _) List.filter_sublist le_rfl le_rfl

/-- Deliveries leave the queue (R186, R189). -/
theorem Inv.dequeue {dlvq : List DlvEntry} (hq : dlvq.Sublist s.dlvq) (trace : List Event) :
    Inv { s with dlvq := dlvq, trace := trace } :=
  hi.mono hi.memory hi.latch hq (.refl _) le_rfl le_rfl

theorem Inv.cancelAnswered (k : Tag) (id : UrbId) (b : Bool) :
    Inv (s.cancelAnswered k id b) := by
  cases b with
  | false => exact hi.emit _
  | true => exact (hi.dequeue List.filter_sublist s.trace).emit _

/-- A delivery joins the queue at its tail, QUEUED (R183). -/
theorem Inv.enqueue {x : Xfer} (hx : AboveQueue s x) :
    Inv { s with dlvq := s.dlvq ++ [⟨x, .queued⟩] } where
  memory := hi.memory
  latch := hi.latch
  queue e he := by
    have hsub (d : DlvEntry) : (s.dlvq ++ [d]).tail ⊆ s.dlvq.tail ++ [d] := by
      cases s.dlvq <;> simp
    rcases List.mem_append.1 (hsub _ he) with he | he
    · exact hi.queue e he
    · rw [List.mem_singleton.1 he]
  buffers := by
    refine ⟨fun e he => ?_, List.pairwise_append.2 ⟨hi.buffers.2, List.pairwise_singleton _ _,
      fun d hd e he => ?_⟩⟩
    · rcases List.mem_append.1 he with he | he
      · exact hi.buffers.1 e he
      · rw [List.mem_singleton.1 he]; exact hx.2
    · rw [List.mem_singleton.1 he]; exact hx.1 d hd
  calls := by
    obtain ⟨hdistinct, hmade, hwaits⟩ := hi.calls
    refine ⟨hdistinct, hmade, fun e he c hc => ?_⟩
    rcases List.mem_append.1 he with he | he
    · exact hwaits e he c hc
    · rw [List.mem_singleton.1 he] at hc; cases hc

/-- The next number is not that of a call somebody waits for. -/
theorem Inv.fresh_notMem : s.fresh ∉ s.agents.map Suspended.call := by
  intro h
  obtain ⟨w, hw, hcall⟩ := List.mem_map.1 h
  exact (hi.calls.2.1 w hw).ne hcall

/-- An agent is suspended in a new call, whatever port it calls. -/
theorem Inv.suspend (g : Agent) (trace : List Event) :
    Inv { s with
      agents := s.agents ++ [⟨s.fresh, g⟩]
      fresh := s.fresh + 1
      trace := trace } where
  memory := hi.memory
  latch := hi.latch
  queue := hi.queue
  buffers := hi.buffers
  calls := by
    obtain ⟨hdistinct, hmade, hwaits⟩ := hi.calls
    have hnew := hi.fresh_notMem
    refine ⟨?_, fun w hw => ?_, fun e he c hc => ?_⟩
    · simpa using List.nodup_append_comm.2 (List.nodup_cons.2 ⟨hnew, hdistinct⟩)
    · rcases List.mem_append.1 hw with hw | hw
      · exact (hmade w hw).trans (Nat.lt_succ_self _)
      · rw [List.mem_singleton.1 hw]; exact Nat.lt_succ_self _
    · obtain ⟨hlt, hfree⟩ := hwaits e he c hc
      refine ⟨hlt.trans (Nat.lt_succ_self _), ?_⟩
      simpa [hlt.ne] using hfree

/-- The head takes the lock with a new call (R184). -/
theorem Inv.acquire : Inv s.acquire := by
  rcases s.acquire_cases with h | ⟨x, rest, -, hq, hqueued, h⟩ <;> rw [h]
  · exact hi
  obtain ⟨hdistinct, hmade, hwaits⟩ := hi.calls
  obtain ⟨hbelow, hapart⟩ := hi.buffers
  rw [hq] at hbelow hapart
  refine ⟨hi.memory, hi.latch, hqueued, ⟨?_, ?_⟩, hdistinct,
    fun w hw => (hmade w hw).trans (Nat.lt_succ_self _), fun e he c hc => ?_⟩
  · simpa using hbelow
  · simpa using hapart
  · rcases List.mem_cons.1 he with rfl | he
    · cases hc
      exact ⟨Nat.lt_succ_self _, hi.fresh_notMem⟩
    · rw [hqueued e he] at hc; cases hc

/-! ### The invariant along an instruction, an answer and a step -/

theorem U2fEnds.inv {k : Tag} {t : State} (h : U2fEnds k s t) : Inv t := by
  cases h with
  | responds data w hw h => exact h ▸ hi.emit _
  | fatal r h => exact h ▸ hi.raiseFatal r
  | calls d w c h => exact h ▸ hi.suspend _ _

theorem U2fRuns.inv {k : Tag} {t : State} (h : U2fRuns k s t) : Inv t :=
  h.elim (U2fEnds.inv hi) (U2fEnds.inv hi.drawn)

theorem ExecRuns.inv {i : Instr} {t : State} (h : ExecRuns i s t)
    (hplaced : ∀ x b, i = .urbDeliver x b → AboveQueue s x) : Inv t := by
  cases h with
  | reply x data hx h => exact h ▸ hi.reply x data
  | fatal r h => exact h ▸ hi.raiseFatal r
  | deliver x b hx h => exact h ▸ hi.enqueue (hplaced x b hx)
  | intake x b hx h => exact h ▸ hi.suspend _ _
  | cancel k id hx h => exact h ▸ hi.suspend _ _
  | returns k v h => exact h ▸ hi.emit _
  | u2f k h => exact h.inv hi

theorem ResumeRuns.inv {c : Tag} {a : Answer} {t : State} (h : ResumeRuns c a s t) : Inv t := by
  cases h with
  | discarded h => exact h ▸ hi.emit _
  | delivered x rest data hq ha h =>
    exact h ▸ (hi.dequeue (hq ▸ List.sublist_cons_self _ _) _).copyOut x data
  | timedOut x rest hq ha h => exact h ▸ hi.dequeue (hq ▸ List.sublist_cons_self _ _) _
  | intake x hw ha h => exact h ▸ (hi.takeAnswer c a).emit _
  | cancel k id b hw ha h => exact h ▸ (hi.takeAnswer c a).cancelAnswered k id b
  | u2f k d w hw h => exact h.inv (hi.takeAnswer c a)

theorem Inv.resume (U : Units) (c : Tag) (a : Answer) : Inv (s.resume U c a) := by
  rcases s.resume_cases U c a with ⟨-, h⟩ | ⟨-, h⟩
  · exact h.inv hi
  · exact h ▸ hi.emit _

end

/-- No APDU row is a delivery (R111, R112). -/
theorem decodeCommand_ne_urbDeliver (k : Tag) (d : Apdu) (x : Xfer) (b : SetupBytes) :
    decodeCommand k d ≠ .urbDeliver x b := by
  unfold decodeCommand
  split_ifs <;> simp

/-- A delivery is a URB on endpoint 1, with its buffer at the next free place (R108; log 2). -/
theorem arriving_of_decode_urbDeliver {s : State} {c : Call} {x : Xfer} {b : SetupBytes}
    (h : decode (s.arriving c) = .ok (.urbDeliver x b)) :
    ∃ id buf, c = .handleMessage id Config.epIn b buf ∧ x = ⟨id, ⟨s.bufTop, buf.length⟩⟩ := by
  cases c with
  | handleMessage id endpoint b' buf =>
    simp only [State.arriving, Call.arrived, decode, decodeUrb, Except.ok.injEq] at h
    split at h
    · cases h
    · split at h
      · next hep => cases h; exact ⟨id, buf, by rw [hep], rfl⟩
      · split at h <;> cases h
  | removeWaitingRequest id => cases h
  | busId => cases h
  | deviceSummary => cases h
  | apdu a =>
    simp only [State.arriving, Call.arrived, decode] at h
    cases hd : decodeApdu a with
    | error e => rw [hd] at h; cases h
    | ok d =>
      rw [hd] at h
      simp only [Except.map, Except.ok.injEq] at h
      exact absurd h (decodeCommand_ne_urbDeliver _ d x b)

/-- So an arriving delivery is above those already pending. -/
theorem Inv.aboveQueue_of_decode {s : State} (hi : Inv s) {c : Call} {x : Xfer} {b : SetupBytes}
    (h : decode (s.arriving c) = .ok (.urbDeliver x b)) : AboveQueue (s.accept c) x := by
  obtain ⟨id, buf, rfl, rfl⟩ := arriving_of_decode_urbDeliver h
  exact ⟨hi.buffers.1, le_rfl⟩

theorem Inv.exec {s t : State} (hi : Inv s) {c : Call} {i : Instr}
    (hd : decode (s.arriving c) = .ok i) (h : exec i (s.accept c) = .next t) : Inv t := by
  rcases exec_cases h with ⟨-, h⟩ | ⟨-, rfl⟩
  · exact h.inv (hi.accept c) fun x b hx => hi.aboveQueue_of_decode (hx ▸ hd)
  · exact hi.accept c

/-- A malformed APDU is answered, or ignored while FATAL holds (R219, R273). -/
theorem rejectApdu_cases {k : Tag} {e : DecodeError} {s t : State}
    (h : rejectApdu k e s = .next t) :
    (s.fatal = none ∧ t = s.respondError k .wrongData) ∨ (s.fatal ≠ none ∧ t = s) :=
  State.serve_cases h

theorem Inv.step {s t : State} (hi : Inv s) (h : step s = .next t) : Inv t := by
  cases step_cases h with
  | idle _ h => exact h ▸ hi
  | instr c rest i _ hd h => exact (hi.withInputs rest).exec hd h
  | malformed c rest e _ _ h =>
    have ha := (hi.withInputs rest).accept c
    rcases rejectApdu_cases h with ⟨-, rfl⟩ | ⟨-, rfl⟩
    · exact ha.emit _
    · exact ha
  | acquire rest _ h => exact h ▸ (hi.withInputs rest).acquire
  | answer c a rest _ h => exact h ▸ (hi.withInputs rest).resume _ c a
  | reset key rest _ h => exact h ▸ (hi.withInputs rest).doReset key

end Machine

/-- Settles O53, along the ways a step can go. -/
theorem everyStepKeepsInv : Obligations.EveryStepKeepsInv :=
  fun _ _ hi h => hi.step h

namespace Machine

/-! ### What every operation but RESET keeps -/

/-- From `s` to `t` events were added, and neither the schedule nor what only RESET may write has
changed. -/
structure Advances (s t : State) : Prop where
  inputs : t.inputs = s.inputs
  params : t.params = s.params
  sk : t.sk = s.sk
  trace : s.trace <+: t.trace
  fatal : ∀ r, s.fatal = some r → t.fatal = some r

theorem Advances.refl (s : State) : Advances s s := ⟨rfl, rfl, rfl, List.prefix_rfl, fun _ => id⟩

theorem Advances.trans {s t u : State} (h : Advances s t) (h' : Advances t u) : Advances s u :=
  ⟨h'.inputs.trans h.inputs, h'.params.trans h.params, h'.sk.trans h.sk, h.trace.trans h'.trace,
    fun r hr => h'.fatal r (h.fatal r hr)⟩

/-- The shape of most operations: one event more, and FATAL as it was. -/
theorem Advances.of_event {s t : State} {e : Event} (ht : t.trace = s.trace ++ [e])
    (hf : t.fatal = s.fatal := by rfl) (hi : t.inputs = s.inputs := by rfl)
    (hp : t.params = s.params := by rfl) (hk : t.sk = s.sk := by rfl) : Advances s t :=
  ⟨hi, hp, hk, ht ▸ List.prefix_append _ _, fun _ hr => hf.trans hr⟩

theorem Advances.drawn (s : State) : Advances s s.drawn :=
  ⟨rfl, rfl, rfl, List.prefix_rfl, fun _ => id⟩

theorem Advances.accept (s : State) (c : Call) : Advances s (s.accept c) :=
  .of_event rfl

theorem Advances.takeAnswer (s : State) (c : Tag) (a : Answer) : Advances s (s.takeAnswer c a) :=
  .of_event rfl

/-- Only a running block takes a fatal error, so no reason is overwritten. -/
theorem Advances.raiseFatal {s : State} (hf : s.fatal = none) (r : FatalReason) :
    Advances s (s.raiseFatal r) :=
  ⟨rfl, rfl, rfl, List.prefix_append _ _, by simp [hf]⟩

theorem Advances.cancelAnswered (s : State) (k : Tag) (id : UrbId) (b : Bool) :
    Advances s (s.cancelAnswered k id b) := by
  cases b <;> exact .of_event rfl

theorem Advances.acquire (s : State) : Advances s s.acquire := by
  rcases s.acquire_cases with h | ⟨x, rest, -, -, -, h⟩ <;> rw [h]
  · exact .refl s
  · exact .of_event rfl

section
variable {s : State} (hf : s.fatal = none)
include hf

theorem U2fEnds.advances {k : Tag} {t : State} (h : U2fEnds k s t) : Advances s t := by
  cases h with
  | responds data w hw h => exact h ▸ .of_event rfl
  | fatal r h => exact h ▸ .raiseFatal hf r
  | calls d w c h => exact h ▸ .of_event rfl

theorem U2fRuns.advances {k : Tag} {t : State} (h : U2fRuns k s t) : Advances s t :=
  h.elim (U2fEnds.advances hf) fun h =>
    (Advances.drawn s).trans (U2fEnds.advances (s := s.drawn) hf h)

theorem ExecRuns.advances {i : Instr} {t : State} (h : ExecRuns i s t) : Advances s t := by
  cases h with
  | reply x data hx h => exact h ▸ .of_event rfl
  | fatal r h => exact h ▸ .raiseFatal hf r
  | deliver x b hx h => exact h ▸ ⟨rfl, rfl, rfl, List.prefix_rfl, fun _ => id⟩
  | intake x b hx h => exact h ▸ .of_event rfl
  | cancel k id hx h => exact h ▸ .of_event rfl
  | returns k v h => exact h ▸ .of_event rfl
  | u2f k h => exact h.advances hf

theorem ResumeRuns.advances {c : Tag} {a : Answer} {t : State} (h : ResumeRuns c a s t) :
    Advances s t := by
  cases h with
  | discarded h => exact h ▸ .of_event rfl
  | delivered x rest data hq ha h =>
    have hanswered : Advances s { s with dlvq := rest, trace := s.trace ++ [.answered c a] } :=
      .of_event rfl
    exact h ▸ hanswered.trans (.of_event rfl)
  | timedOut x rest hq ha h => exact h ▸ .of_event rfl
  | intake x hw ha h =>
    exact h ▸ (Advances.takeAnswer s c a).trans (.of_event rfl)
  | cancel k id b hw ha h =>
    exact h ▸ (Advances.takeAnswer s c a).trans (.cancelAnswered _ k id b)
  | u2f k d w hw h =>
    exact (Advances.takeAnswer s c a).trans (U2fRuns.advances (s := s.takeAnswer c a) hf h)

end

theorem Advances.exec {i : Instr} {s t : State} (h : exec i s = .next t) : Advances s t := by
  rcases exec_cases h with ⟨hf, h⟩ | ⟨-, rfl⟩
  · exact h.advances hf
  · exact .refl _

theorem Advances.rejectApdu {k : Tag} {e : DecodeError} {s t : State}
    (h : rejectApdu k e s = .next t) : Advances s t := by
  rcases rejectApdu_cases h with ⟨-, rfl⟩ | ⟨-, rfl⟩
  · exact .of_event rfl
  · exact .refl _

theorem Advances.resume (U : Units) (s : State) (c : Tag) (a : Answer) :
    Advances s (s.resume U c a) := by
  rcases s.resume_cases U c a with ⟨hf, h⟩ | ⟨-, h⟩
  · exact h.advances hf
  · exact h ▸ .of_event rfl

/-- A step is RESET, or it takes the next input and advances. -/
theorem step_advances {s t : State} (h : step s = .next t) :
    (∃ key more, s.inputs = .reset key :: more ∧ t = State.doReset { s with inputs := more } key) ∨
      Advances { s with inputs := s.inputs.tail } t := by
  cases step_cases h with
  | idle hi h =>
    subst h
    exact .inr ⟨by simp [hi], rfl, rfl, List.prefix_rfl, fun _ => id⟩
  | instr c rest i hi hd h =>
    rw [hi]
    exact .inr ((Advances.accept _ c).trans (.exec h))
  | malformed c rest e hi hd h =>
    rw [hi]
    exact .inr ((Advances.accept _ c).trans (.rejectApdu h))
  | acquire rest hi h =>
    rw [h, hi]
    exact .inr (.acquire _)
  | answer c a rest hi h =>
    rw [h, hi]
    exact .inr (.resume _ _ c a)
  | reset key rest hi h => exact .inl ⟨key, rest, hi, h⟩

end Machine

/-- Settles O46: RESET too takes its input and adds its event. -/
theorem stepsTakeOneInputAndOnlyAddEvents : Obligations.StepsTakeOneInputAndOnlyAddEvents := by
  intro s t h
  rcases step_advances h with ⟨key, more, hi, rfl⟩ | ha
  · exact ⟨by simp [hi], List.prefix_append _ _, rfl⟩
  · exact ⟨ha.inputs, ha.trace, ha.params⟩

/-- Settles O55: a step that is not RESET advances. -/
theorem onlyResetWritesSkOrClearsFatal : Obligations.OnlyResetWritesSkOrClearsFatal := by
  intro s t h hreset
  rcases step_advances h with ⟨key, more, hi, -⟩ | ha
  · exact absurd hi (hreset key more)
  · exact ⟨ha.sk, ha.fatal⟩

namespace Machine

/-! ### The reset state (10_state.md R35; 70_reset_and_hazards.md R301, R315) -/

theorem sealingKey_length : 32 ≤ Config.sealingKey.length := by
  simp [Config.sealingKey, Config.sealKeyBytes]

/-- The last RESET decides what the client's key is (R31). -/
theorem clientKey_append_reset (trace : List Event) (key : Bytes) :
    clientKey (trace ++ [.reset key]) = some key := by
  simp [clientKey]

theorem cleanStart_reset : CleanStart State.reset :=
  ⟨rfl, rfl, rfl, rfl, rfl, sealingKey_length⟩

theorem cleanStart_doReset (s : State) {key : Bytes} (hkey : 32 ≤ key.length) :
    CleanStart (s.doReset key) :=
  ⟨rfl, rfl, rfl, rfl, clientKey_append_reset s.trace key, hkey⟩

theorem stableKey_reset : StableKey State.reset := by
  simp [StableKey, State.reset]

/-- When RESET is the next input, the step is `doReset`. -/
theorem step_of_reset {s : State} {key : Bytes} {more : List Input}
    (hi : s.inputs = .reset key :: more) :
    step s = .next (State.doReset { s with inputs := more } key) := by
  rw [step, hi]
  rfl

theorem inv_reset : Inv State.reset where
  memory := Memory.wf_reset
  latch := rfl
  queue := by simp [QueueOk, State.reset]
  buffers := by simp [BuffersOk, State.reset]
  calls := by simp [CallsOk, State.reset]

/-- Without a suspended agent there is no handle to be sealed. -/
theorem handlesSealed_of_no_agents {U : Units} {s : State} (h : s.agents = []) :
    HandlesSealed U s := by
  simp [HandlesSealed, h]

end Machine

/-- Settles O50: `State.reset` by its fields, any other RESET through `doReset`. -/
theorem resetStateIsACleanStart : Obligations.ResetStateIsACleanStart := by
  refine ⟨cleanStart_reset, stableKey_reset, rfl, fun s t key more hi hkey h => ?_⟩
  rw [step_of_reset hi] at h
  cases h
  exact ⟨cleanStart_doReset _ hkey, rfl⟩

/-- Settles O52: at reset nothing is queued, suspended or written. -/
theorem invHoldsAtReset : Obligations.InvHoldsAtReset :=
  ⟨inv_reset, handlesSealed_of_no_agents rfl⟩

end Sys2Proof
end

section
/-! The statements of 20_memory.md: the literal images of the descriptor ROM, which buffer bytes a step
writes, and the order of the delivery queue. -/

namespace Sys2Proof

open Machine

/-! ### The descriptor ROM (R52, R59, R61, R62) -/

/-- Settles O10: the two images, assembled from their fields, evaluate to the listed bytes. -/
theorem deviceDescriptorAndReportMapImages : Obligations.DeviceDescriptorAndReportMapImages :=
  ⟨rfl, rfl, rfl, rfl⟩

/-- Settles O12: each image's length byte, type and UTF-16 payload evaluate to the row of R62. -/
theorem stringImages : Obligations.StringImages := ⟨rfl, rfl, rfl, rfl, rfl, rfl⟩

namespace Machine

/-! ### Where a copy and an arrival write (R50, R67) -/

section
variable (s : State)

/-- A copy into a URB's buffer changes only the copied bytes at its start; so does a reply, whose memory
is the same. -/
theorem State.read_copyOut_other (x : Xfer) (data : Bytes) {b : Nat}
    (h : b < x.buf.base ∨ x.buf.base + copyLen x.buf data ≤ b) :
    (s.copyOut x data).mem.read b = s.mem.read b := by
  have hlen : (data.take x.buf.len).length = copyLen x.buf data := by
    rw [List.length_take, copyLen, Nat.min_comm]
  exact Memory.read_writeBytes_other _ _ _ (hlen ▸ h)

/-- An arriving buffer is placed at the next free place, above every byte already given out. -/
theorem State.read_accept_of_lt (c : Call) {b : Nat} (h : b < s.bufTop) :
    (s.accept c).mem.read b = s.mem.read b :=
  Memory.read_writeBytes_other _ _ _ (.inl h)

/-- A cancellation only takes URBs out of the queue (R189). -/
theorem State.cancelAnswered_dlvq_sublist (k : Tag) (id : UrbId) (b : Bool) :
    (s.cancelAnswered k id b).dlvq.Sublist s.dlvq := by
  cases b with
  | false => exact .refl _
  | true => exact List.filter_sublist

theorem State.cancelAnswered_mem (k : Tag) (id : UrbId) (b : Bool) :
    (s.cancelAnswered k id b).mem = s.mem := by
  cases b <;> rfl

theorem State.acquire_mem : s.acquire.mem = s.mem := by
  rcases s.acquire_cases with h | ⟨x, rest, -, -, -, h⟩ <;> rw [h]

/-- Taking the lock changes the head's phase only (R184). -/
theorem State.acquire_dlvq_xfer :
    s.acquire.dlvq.map DlvEntry.xfer = s.dlvq.map DlvEntry.xfer := by
  rcases s.acquire_cases with h | ⟨x, rest, -, hq, -, h⟩ <;> rw [h]
  rw [hq]
  rfl

end

/-! ### An EP0 reply goes to the URB that has just arrived (R108, R182) -/

/-- No APDU row replies to a URB (R111, R112). -/
theorem decodeCommand_replyTo (k : Tag) (d : Apdu) : (decodeCommand k d).replyTo = none := by
  unfold decodeCommand
  split_ifs <;> rfl

/-- Only the control row of a URB replies to it. -/
theorem decodeUrb_replyTo {x y : Xfer} {endpoint : Nat} {b : SetupBytes}
    (h : (decodeUrb x endpoint b).replyTo = some y) : endpoint = Config.epCtrl ∧ y = x := by
  unfold decodeUrb at h
  split at h
  · next hep => cases h; exact ⟨hep, rfl⟩
  · split_ifs at h <;> cases h

/-- An instruction that replies is a URB on endpoint 0, with its buffer at the next free place. -/
theorem arriving_of_decode_replyTo {s : State} {c : Call} {i : Instr} {x : Xfer}
    (h : decode (s.arriving c) = .ok i) (hx : i.replyTo = some x) :
    ∃ id b buf, c = .handleMessage id Config.epCtrl b buf ∧ x = ⟨id, ⟨s.bufTop, buf.length⟩⟩ := by
  cases c with
  | handleMessage id endpoint b buf =>
    cases h
    obtain ⟨rfl, rfl⟩ := decodeUrb_replyTo hx
    exact ⟨id, b, buf, rfl, rfl⟩
  | removeWaitingRequest id => cases h; cases hx
  | busId => cases h; cases hx
  | deviceSummary => cases h; cases hx
  | apdu a =>
    simp only [State.arriving, Call.arrived, decode] at h
    cases hd : decodeApdu a with
    | error e => rw [hd] at h; cases h
    | ok d =>
      rw [hd] at h
      cases h
      rw [decodeCommand_replyTo] at hx
      cases hx

/-! ### What a U2F call, an instruction and an answer do to buffers and queue -/

section
variable {s t : State} {k : Tag}

theorem U2fEnds.mem_dlvq (h : U2fEnds k s t) : t.mem = s.mem ∧ t.dlvq = s.dlvq := by
  cases h with
  | responds data w hw h => exact h ▸ ⟨rfl, rfl⟩
  | fatal r h => exact h ▸ ⟨rfl, rfl⟩
  | calls d w c h => exact h ▸ ⟨rfl, rfl⟩

/-- A U2F call touches neither a transfer buffer nor the delivery queue. -/
theorem U2fRuns.mem_dlvq (h : U2fRuns k s t) : t.mem = s.mem ∧ t.dlvq = s.dlvq :=
  h.elim U2fEnds.mem_dlvq U2fEnds.mem_dlvq

/-- Below the buffer it replies to, an instruction writes nothing. -/
theorem ExecRuns.read_of_lt {i : Instr} {b : Nat} (h : ExecRuns i s t)
    (hb : ∀ x, i.replyTo = some x → b < x.buf.base) : t.mem.read b = s.mem.read b := by
  cases h with
  | reply x data hx h => exact h ▸ s.read_copyOut_other x data (.inl (hb x hx))
  | fatal r h => exact h ▸ rfl
  | deliver x d hx h => exact h ▸ rfl
  | intake x d hx h => exact h ▸ rfl
  | cancel k id hx h => exact h ▸ rfl
  | returns k v h => exact h ▸ rfl
  | u2f k h => rw [h.mem_dlvq.1]

/-- Only a delivery's arrival changes the queue, at its tail (R183). -/
theorem ExecRuns.dlvq {i : Instr} (h : ExecRuns i s t) :
    t.dlvq = s.dlvq ∨ ∃ x b, i = .urbDeliver x b ∧ t.dlvq = s.dlvq ++ [⟨x, .queued⟩] := by
  cases h with
  | reply x data hx h => exact .inl (h ▸ rfl)
  | fatal r h => exact .inl (h ▸ rfl)
  | deliver x b hx h => exact .inr ⟨x, b, hx, h ▸ rfl⟩
  | intake x b hx h => exact .inl (h ▸ rfl)
  | cancel k id hx h => exact .inl (h ▸ rfl)
  | returns k v h => exact .inl (h ▸ rfl)
  | u2f k h => exact .inl h.mem_dlvq.2

/-- The only answer that changes a byte is the WAITING head's data, within the copied bytes (R185). -/
theorem ResumeRuns.copied_of_read_ne {c : Tag} {a : Answer} {b : Nat} (h : ResumeRuns c a s t)
    (hb : t.mem.read b ≠ s.mem.read b) :
    ∃ x rest data, s.dlvq = ⟨x, .waiting c⟩ :: rest ∧ a = .response (some data) ∧
      x.buf.base ≤ b ∧ b < x.buf.base + copyLen x.buf data := by
  cases h with
  | discarded h => exact absurd (h ▸ rfl) hb
  | delivered x rest data hq ha h =>
    by_cases hout : b < x.buf.base ∨ x.buf.base + copyLen x.buf data ≤ b
    · exact absurd (h ▸ State.read_copyOut_other _ x data hout) hb
    · exact ⟨x, rest, data, hq, ha, by omega, by omega⟩
  | timedOut x rest hq ha h => exact absurd (h ▸ rfl) hb
  | intake x hw ha h => exact absurd (h ▸ rfl) hb
  | cancel k id d hw ha h =>
    rw [h, State.cancelAnswered_mem] at hb
    exact absurd rfl hb
  | u2f k d w hw h =>
    rw [h.mem_dlvq.1] at hb
    exact absurd rfl hb

/-- At an answer URBs only leave the queue. -/
theorem ResumeRuns.dlvq_sublist {c : Tag} {a : Answer} (h : ResumeRuns c a s t) :
    t.dlvq.Sublist s.dlvq := by
  cases h with
  | discarded h => exact h ▸ .refl _
  | delivered x rest data hq ha h => exact h ▸ hq ▸ List.sublist_cons_self _ _
  | timedOut x rest hq ha h => exact h ▸ hq ▸ List.sublist_cons_self _ _
  | intake x hw ha h => exact h ▸ .refl _
  | cancel k id b hw ha h => exact h ▸ (s.takeAnswer c a).cancelAnswered_dlvq_sublist k id b
  | u2f k d w hw h => exact h.mem_dlvq.2 ▸ .refl _

/-- An arriving call's instruction writes no byte that was given out before. -/
theorem exec_accept_read_of_lt {c : Call} {i : Instr} {b : Nat} (hd : decode (s.arriving c) = .ok i)
    (h : exec i (s.accept c) = .next t) (hb : b < s.bufTop) : t.mem.read b = s.mem.read b := by
  rw [← s.read_accept_of_lt c hb]
  rcases exec_cases h with ⟨-, h⟩ | ⟨-, rfl⟩
  · refine h.read_of_lt fun x hx => ?_
    obtain ⟨id, d, buf, rfl, rfl⟩ := arriving_of_decode_replyTo hd hx
    exact hb
  · rfl

theorem rejectApdu_mem_dlvq {e : DecodeError} (h : rejectApdu k e s = .next t) :
    t.mem = s.mem ∧ t.dlvq = s.dlvq := by
  rcases rejectApdu_cases h with ⟨-, rfl⟩ | ⟨-, rfl⟩ <;> exact ⟨rfl, rfl⟩

/-- The URB `x` is the EP1 URB that the next input brings. -/
def State.Arrives (s : State) (x : Xfer) : Prop :=
  ∃ id b buf more, s.inputs = .call (.handleMessage id Config.epIn b buf) :: more ∧
    x = ⟨id, ⟨s.bufTop, buf.length⟩⟩

/-- What a step does to the order of deliveries: URBs leave, or the one that has just arrived joins at
the tail. -/
theorem step_dlvq_xfer (h : step s = .next t) :
    (t.dlvq.map DlvEntry.xfer).Sublist (s.dlvq.map DlvEntry.xfer) ∨
      ∃ x, s.Arrives x ∧ t.dlvq.map DlvEntry.xfer = s.dlvq.map DlvEntry.xfer ++ [x] := by
  cases step_cases h with
  | idle hi h => exact .inl (h ▸ .refl _)
  | instr c rest i hi hd h =>
    rcases exec_cases h with ⟨-, h⟩ | ⟨-, rfl⟩
    · rcases h.dlvq with hq | ⟨x, d, rfl, hq⟩
      · exact .inl (hq ▸ .refl _)
      · obtain ⟨id, buf, rfl, rfl⟩ := arriving_of_decode_urbDeliver hd
        exact .inr ⟨_, ⟨id, d, buf, rest, hi, rfl⟩, by simp [hq]⟩
    · exact .inl (.refl _)
  | malformed c rest e hi hd h => exact .inl ((rejectApdu_mem_dlvq h).2 ▸ .refl _)
  | acquire rest hi h =>
    subst h
    exact .inl (State.acquire_dlvq_xfer { s with inputs := rest } ▸ .refl _)
  | answer c a rest hi h =>
    subst h
    refine .inl (.map _ ?_)
    rcases State.resume_cases Config.units { s with inputs := rest } c a with ⟨-, h⟩ | ⟨-, h⟩
    · exact h.dlvq_sublist
    · exact h ▸ .refl _
  | reset key rest hi h => exact .inl (h ▸ List.nil_sublist _)

end

end Machine

/-- Settles O57: an arriving call writes at or above the next free place, and of the other inputs only
the answer of a delivery writes at all. -/
theorem stepsWriteOnlyTheAnsweredBuffer : Obligations.StepsWriteOnlyTheAnsweredBuffer := by
  intro s t b h hb hne
  cases step_cases h with
  | idle hi h => exact absurd (h ▸ rfl) hne
  | instr c rest i hi hd h =>
    exact absurd (exec_accept_read_of_lt (s := { s with inputs := rest }) hd h hb) hne
  | malformed c rest e hi hd h =>
    rw [(rejectApdu_mem_dlvq h).1] at hne
    exact absurd (State.read_accept_of_lt _ c hb) hne
  | acquire rest hi h =>
    rw [h, State.acquire_mem] at hne
    exact absurd rfl hne
  | answer c a rest hi h =>
    subst h
    rcases State.resume_cases Config.units { s with inputs := rest } c a with ⟨hf, h⟩ | ⟨-, h⟩
    · obtain ⟨x, queue, data, hq, rfl, hcopied⟩ := h.copied_of_read_ne hne
      exact ⟨x, queue, c, data, rest, hf, hq, hi, hcopied⟩
    · exact absurd (h ▸ rfl) hne
  | reset key rest hi h => exact absurd (h ▸ rfl) hne

/-- Settles O59: the arrived URB is the one that joined the queue, if any. -/
theorem deliveriesKeepArrivalOrder : Obligations.DeliveriesKeepArrivalOrder := by
  intro s t h
  rcases step_dlvq_xfer h with h | ⟨x, hx, h⟩
  · exact ⟨[], by simp, by simpa using h, by simp⟩
  · refine ⟨[x], by simp, h ▸ .refl _, fun y hy => ?_⟩
    rw [List.mem_singleton.1 hy]
    exact hx

end Sys2Proof
end

section
/-! The statements of 30_encoding.md: the decoders against the encoder, what the SETUP dispatch reads, the
layout of a REGISTER response, the rows of AUTHENTICATE, and the status word that ends every response. -/

namespace Sys2Proof

open Machine

/-! ### Round trip (R100 to R112) -/

/-- Settles O3: `Laws.Encoding` has the round trip of each row. -/
theorem decodeOfEncodeIsTheInstruction : Obligations.DecodeOfEncodeIsTheInstruction := by
  intro i
  cases i with
  | getDescriptorDevice x a d => exact Laws.Encoding.getDescriptorDevice x a d
  | getDescriptorConfiguration x a d => exact Laws.Encoding.getDescriptorConfiguration x a d
  | getDescriptorString x a d => exact Laws.Encoding.getDescriptorString x a d
  | fatalDeviceGetDescriptorType x a t d =>
    exact Laws.Encoding.fatalDeviceGetDescriptorType x a t d
  | setConfiguration x a v => exact Laws.Encoding.setConfiguration x a v
  | getStatus x a v => exact Laws.Encoding.getStatus x a v
  | fatalDeviceUnknownRequest x a r v => exact Laws.Encoding.fatalDeviceUnknownRequest x a r v
  | setIdle x a v => exact Laws.Encoding.setIdle x a v
  | setProtocol x a v => exact Laws.Encoding.setProtocol x a v
  | getDescriptorHidReport x a d => exact Laws.Encoding.getDescriptorHidReport x a d
  | fatalInterfaceGetDescriptorType x a t d =>
    exact Laws.Encoding.fatalInterfaceGetDescriptorType x a t d
  | fatalInterfaceUnknownRequest x a r v =>
    exact Laws.Encoding.fatalInterfaceUnknownRequest x a r v
  | fatalUnknownRecipient x a rec r v => exact Laws.Encoding.fatalUnknownRecipient x a rec r v
  | urbControl x b => exact Laws.Encoding.urbControl x b
  | urbDeliver x b => exact Laws.Encoding.urbDeliver x b
  | urbIntake x b => exact Laws.Encoding.urbIntake x b
  | fatalUnknownEndpoint x b e => exact Laws.Encoding.fatalUnknownEndpoint x b e
  | cancel k id => exact Laws.Encoding.cancel k id
  | busId k => exact Laws.Encoding.busId k
  | deviceSummary k => exact Laws.Encoding.deviceSummary k
  | u2fRegister k cla p1 p2 req le => exact Laws.Encoding.u2fRegister k cla p1 p2 req le
  | u2fAuthenticateCheckOnly k cla p2 req le =>
    exact Laws.Encoding.u2fAuthenticateCheckOnly k cla p2 req le
  | u2fAuthenticateEnforce k cla p2 req le =>
    exact Laws.Encoding.u2fAuthenticateEnforce k cla p2 req le
  | u2fAuthenticateSign k cla p2 req le =>
    exact Laws.Encoding.u2fAuthenticateSign k cla p2 req le
  | u2fAuthenticateOtherP1 k cla p1 p2 req le =>
    exact Laws.Encoding.u2fAuthenticateOtherP1 k cla p1 p2 req le
  | u2fVersion k cla p1 p2 req le => exact Laws.Encoding.u2fVersion k cla p1 p2 req le
  | fatalUnknownIns k cla ins p1 p2 req le =>
    exact Laws.Encoding.fatalUnknownIns k cla ins p1 p2 req le

namespace Machine

/-! ### Status words (R118) -/

/-- From `s` to `t` events were added, and every response among them ends in an emitted status word. -/
def AddsEmitted (s t : State) : Prop :=
  ∃ events, t.trace = s.trace ++ events ∧
    ∀ k bytes, Event.respond k bytes ∈ events → EndsInStatusWord bytes

theorem AddsEmitted.of_trace_eq {s t : State} (h : t.trace = s.trace) : AddsEmitted s t :=
  ⟨[], by simp [h], by simp⟩

theorem AddsEmitted.trans {s t u : State} (h : AddsEmitted s t) (h' : AddsEmitted t u) :
    AddsEmitted s u := by
  obtain ⟨events, ht, hevents⟩ := h
  obtain ⟨more, hu, hmore⟩ := h'
  refine ⟨events ++ more, by rw [hu, ht, List.append_assoc], fun k bytes he => ?_⟩
  exact (List.mem_append.1 he).elim (hevents k bytes) (hmore k bytes)

/-- An event that is no response. -/
theorem AddsEmitted.of_event {s t : State} {e : Event} (ht : t.trace = s.trace ++ [e])
    (he : ∀ k bytes, e ≠ .respond k bytes := by simp) : AddsEmitted s t :=
  ⟨[e], ht, fun k bytes h => absurd (List.mem_singleton.1 h).symm (he k bytes)⟩

/-- A response that ends in a status word of R118. -/
theorem AddsEmitted.respond (s : State) (k : Tag) (data : Bytes) {w : StatusWord}
    (hw : w.emitted) : AddsEmitted s (s.respond k (response data w)) := by
  refine ⟨_, rfl, fun k' bytes h => ?_⟩
  cases List.mem_singleton.1 h
  exact ⟨data, w, hw, rfl⟩

theorem AddsEmitted.accept (s : State) (c : Call) : AddsEmitted s (s.accept c) :=
  .of_event rfl

theorem AddsEmitted.takeAnswer (s : State) (c : Tag) (a : Answer) :
    AddsEmitted s (s.takeAnswer c a) :=
  .of_event rfl

theorem AddsEmitted.cancelAnswered (s : State) (k : Tag) (id : UrbId) (b : Bool) :
    AddsEmitted s (s.cancelAnswered k id b) := by
  cases b <;> exact .of_event rfl

theorem AddsEmitted.acquire (s : State) : AddsEmitted s s.acquire := by
  rcases s.acquire_cases with h | ⟨x, rest, -, -, -, h⟩ <;> rw [h]
  · exact .of_trace_eq rfl
  · exact .of_event rfl

section
variable {s t : State}

theorem U2fEnds.addsEmitted {k : Tag} (h : U2fEnds k s t) : AddsEmitted s t := by
  cases h with
  | responds data w hw h => exact h ▸ .respond s k data hw
  | fatal r h => exact h ▸ .of_event rfl
  | calls d w c h => exact h ▸ .of_event rfl

theorem U2fRuns.addsEmitted {k : Tag} (h : U2fRuns k s t) : AddsEmitted s t :=
  h.elim U2fEnds.addsEmitted U2fEnds.addsEmitted

theorem ExecRuns.addsEmitted {i : Instr} (h : ExecRuns i s t) : AddsEmitted s t := by
  cases h with
  | reply x data hx h => exact h ▸ .of_event rfl
  | fatal r h => exact h ▸ .of_event rfl
  | deliver x b hx h => exact h ▸ .of_trace_eq rfl
  | intake x b hx h => exact h ▸ .of_event rfl
  | cancel k id hx h => exact h ▸ .of_event rfl
  | returns k v h => exact h ▸ .of_event rfl
  | u2f k h => exact h.addsEmitted

theorem ResumeRuns.addsEmitted {c : Tag} {a : Answer} (h : ResumeRuns c a s t) :
    AddsEmitted s t := by
  cases h with
  | discarded h => exact h ▸ .of_event rfl
  | delivered x rest data hq ha h =>
    have hanswered : AddsEmitted s { s with dlvq := rest, trace := s.trace ++ [.answered c a] } :=
      .of_event rfl
    exact h ▸ hanswered.trans (.of_event rfl)
  | timedOut x rest hq ha h => exact h ▸ .of_event rfl
  | intake x hw ha h => exact h ▸ (AddsEmitted.takeAnswer s c a).trans (.of_event rfl)
  | cancel k id b hw ha h =>
    exact h ▸ (AddsEmitted.takeAnswer s c a).trans (.cancelAnswered _ k id b)
  | u2f k d w hw h => exact (AddsEmitted.takeAnswer s c a).trans h.addsEmitted

theorem AddsEmitted.exec {i : Instr} (h : exec i s = .next t) : AddsEmitted s t := by
  rcases exec_cases h with ⟨-, h⟩ | ⟨-, rfl⟩
  · exact h.addsEmitted
  · exact .of_trace_eq rfl

theorem AddsEmitted.rejectApdu {k : Tag} {e : DecodeError} (h : rejectApdu k e s = .next t) :
    AddsEmitted s t := by
  rcases rejectApdu_cases h with ⟨-, rfl⟩ | ⟨-, rfl⟩
  · exact .respond s k [] emitted_wrongData
  · exact .of_trace_eq rfl

theorem AddsEmitted.resume (U : Units) (s : State) (c : Tag) (a : Answer) :
    AddsEmitted s (s.resume U c a) := by
  rcases s.resume_cases U c a with ⟨-, h⟩ | ⟨-, h⟩
  · exact h.addsEmitted
  · exact h ▸ .of_event rfl

/-- Consuming the input is no event: `s` and `{ s with inputs := rest }` have one trace. -/
theorem AddsEmitted.step (h : step s = .next t) : AddsEmitted s t := by
  cases step_cases h with
  | idle hi h => exact .of_trace_eq (h ▸ rfl)
  | instr c rest i hi hd h => exact (AddsEmitted.accept { s with inputs := rest } c).trans (.exec h)
  | malformed c rest e hi hd h =>
    exact (AddsEmitted.accept { s with inputs := rest } c).trans (.rejectApdu h)
  | acquire rest hi h => exact h ▸ AddsEmitted.acquire { s with inputs := rest }
  | answer c a rest hi h => exact h ▸ AddsEmitted.resume _ { s with inputs := rest } c a
  | reset key rest hi h => exact h ▸ .of_event rfl

end

end Machine

/-- Settles O56, along the ways a step can go: a U2F call and the refusal of a malformed APDU are all that
responds. -/
theorem everyResponseEndsInAnEmittedStatusWord :
    Obligations.EveryResponseEndsInAnEmittedStatusWord :=
  fun _ _ h => AddsEmitted.step h

/-! ### The SETUP dispatch (R106) -/

/-- The condition of R106 under which a SETUP row takes the packet. -/
def SetupRow.Takes (q : RequestCodes) (p : Setup) : SetupRow → Prop
  | .getDescriptorDevice => p.recipient = q.recDevice ∧ p.bRequest = q.reqGetDescriptor ∧
      p.descType = Config.descDevice
  | .getDescriptorConfiguration => p.recipient = q.recDevice ∧ p.bRequest = q.reqGetDescriptor ∧
      p.descType = Config.descConfiguration
  | .getDescriptorString => p.recipient = q.recDevice ∧ p.bRequest = q.reqGetDescriptor ∧
      p.descType = Config.descString
  | .fatalDeviceGetDescriptorType => p.recipient = q.recDevice ∧
      p.bRequest = q.reqGetDescriptor ∧ p.descType ≠ Config.descDevice ∧
      p.descType ≠ Config.descConfiguration ∧ p.descType ≠ Config.descString
  | .setConfiguration => p.recipient = q.recDevice ∧ p.bRequest = q.reqSetConfiguration
  | .getStatus => p.recipient = q.recDevice ∧ p.bRequest = q.reqGetStatus
  | .fatalDeviceUnknownRequest => p.recipient = q.recDevice ∧ p.bRequest ≠ q.reqGetDescriptor ∧
      p.bRequest ≠ q.reqSetConfiguration ∧ p.bRequest ≠ q.reqGetStatus
  | .setIdle => p.recipient = q.recInterface ∧ p.bRequest = q.reqSetIdle
  | .setProtocol => p.recipient = q.recInterface ∧ p.bRequest = q.reqSetProtocol
  | .getDescriptorHidReport => p.recipient = q.recInterface ∧ p.bRequest = q.reqGetDescriptor ∧
      p.descType = Config.descHidReport
  | .fatalInterfaceGetDescriptorType => p.recipient = q.recInterface ∧
      p.bRequest = q.reqGetDescriptor ∧ p.descType ≠ Config.descHidReport
  | .fatalInterfaceUnknownRequest => p.recipient = q.recInterface ∧ p.bRequest ≠ q.reqSetIdle ∧
      p.bRequest ≠ q.reqSetProtocol ∧ p.bRequest ≠ q.reqGetDescriptor
  | .fatalUnknownRecipient => p.recipient ≠ q.recDevice ∧ p.recipient ≠ q.recInterface

section
variable {q : RequestCodes} {p : Setup}

theorem classifyDevice_takes (h : p.recipient = q.recDevice) :
    (classifyDevice q p).Takes q p := by
  unfold classifyDevice
  split_ifs with hget hdevice hconfiguration hstring hset hstatus
  · exact ⟨h, hget, hdevice⟩
  · exact ⟨h, hget, hconfiguration⟩
  · exact ⟨h, hget, hstring⟩
  · exact ⟨h, hget, hdevice, hconfiguration, hstring⟩
  · exact ⟨h, hset⟩
  · exact ⟨h, hstatus⟩
  · exact ⟨h, hget, hset, hstatus⟩

theorem classifyInterface_takes (h : p.recipient = q.recInterface) :
    (classifyInterface q p).Takes q p := by
  unfold classifyInterface
  split_ifs with hidle hprotocol hget hreport
  · exact ⟨h, hidle⟩
  · exact ⟨h, hprotocol⟩
  · exact ⟨h, hget, hreport⟩
  · exact ⟨h, hget, hreport⟩
  · exact ⟨h, hidle, hprotocol, hget⟩

/-- The row chosen takes the packet, whatever the codes are. -/
theorem classify_takes (q : RequestCodes) (p : Setup) : (classify q p).Takes q p := by
  unfold classify
  split_ifs with hd hi
  · exact classifyDevice_takes hd
  · exact classifyInterface_takes hi
  · exact ⟨hd, hi⟩

/-- With distinct codes the row that takes the packet is chosen. -/
theorem classify_of_takes (hq : q.Distinct) {row : SetupRow} (h : row.Takes q p) :
    classify q p = row := by
  cases row
  case getDescriptorDevice | getDescriptorConfiguration | getDescriptorString |
      fatalDeviceGetDescriptorType =>
    obtain ⟨hr, hb, ht⟩ := h
    simp [classify_device hr, classifyDevice, hb, ht]
  case setConfiguration | getStatus =>
    obtain ⟨hr, hb⟩ := h
    simp [classify_device hr, classifyDevice, hb, hq.device]
  case fatalDeviceUnknownRequest =>
    obtain ⟨hr, hb⟩ := h
    simp [classify_device hr, classifyDevice, hb]
  case setIdle | setProtocol =>
    obtain ⟨hr, hb⟩ := h
    simp [classify_interface hq hr, classifyInterface, hb, hq.interface]
  case getDescriptorHidReport | fatalInterfaceGetDescriptorType =>
    obtain ⟨hr, hb, ht⟩ := h
    simp [classify_interface hq hr, classifyInterface, hb, hq.interface, ht]
  case fatalInterfaceUnknownRequest =>
    obtain ⟨hr, hb⟩ := h
    simp [classify_interface hq hr, classifyInterface, hb]
  case fatalUnknownRecipient =>
    obtain ⟨hd, hi⟩ := h
    simp [classify, hd, hi]

theorem classify_eq_iff (hq : q.Distinct) (row : SetupRow) :
    classify q p = row ↔ row.Takes q p :=
  ⟨fun h => h ▸ classify_takes q p, classify_of_takes hq⟩

end

/-- Settles O2: the conjuncts are the cases of `SetupRow.Takes`. -/
theorem classifyTakesExactlyTheMap : Obligations.ClassifyTakesExactlyTheMap :=
  fun _ _ hq => ⟨classify_eq_iff hq .getDescriptorDevice,
    classify_eq_iff hq .getDescriptorConfiguration, classify_eq_iff hq .getDescriptorString,
    classify_eq_iff hq .fatalDeviceGetDescriptorType, classify_eq_iff hq .setConfiguration,
    classify_eq_iff hq .getStatus, classify_eq_iff hq .fatalDeviceUnknownRequest,
    classify_eq_iff hq .setIdle, classify_eq_iff hq .setProtocol,
    classify_eq_iff hq .getDescriptorHidReport,
    classify_eq_iff hq .fatalInterfaceGetDescriptorType,
    classify_eq_iff hq .fatalInterfaceUnknownRequest, classify_eq_iff hq .fatalUnknownRecipient⟩

/-! ### What the decoder answers (R100 to R112) -/

section
variable (q : RequestCodes)

/-- The codes that a row leaves out of its operands are those its condition fixes, so the encoder puts
the packet's own fields back. -/
theorem encode_decodeFields (x : Xfer) (p : Setup) :
    encode q (decodeFields q x p) =
      encodeControl x p.recipient p.attrs p.bRequest p.wValue := by
  have h := classify_takes q p
  unfold decodeFields
  cases hrow : classify q p <;> rw [hrow] at h
  case getDescriptorDevice | getDescriptorConfiguration | getDescriptorString |
      getDescriptorHidReport =>
    obtain ⟨hr, hb, ht⟩ := h
    simp only [encode, ← hr, ← hb, ← ht, descType_append_descIndex]
  case fatalDeviceGetDescriptorType | fatalInterfaceGetDescriptorType =>
    obtain ⟨hr, hb, -⟩ := h
    simp only [encode, ← hr, ← hb, descType_append_descIndex]
  case setConfiguration | getStatus | setIdle | setProtocol =>
    obtain ⟨hr, hb⟩ := h
    simp only [encode, ← hr, ← hb]
  case fatalDeviceUnknownRequest | fatalInterfaceUnknownRequest =>
    obtain ⟨hr, -⟩ := h
    simp only [encode, ← hr]
  case fatalUnknownRecipient => rfl

/-- A row's operands keep its condition. -/
theorem wellFormed_decodeFields (x : Xfer) (p : Setup) :
    WellFormed q (decodeFields q x p) = true := by
  have h := classify_takes q p
  unfold decodeFields
  cases hrow : classify q p <;> rw [hrow] at h
  case fatalDeviceGetDescriptorType | fatalInterfaceGetDescriptorType =>
    exact decide_eq_true h.2.2
  case fatalDeviceUnknownRequest | fatalInterfaceUnknownRequest => exact decide_eq_true h.2
  case fatalUnknownRecipient => exact decide_eq_true h
  all_goals rfl

theorem wellFormed_decodeUrb (x : Xfer) (endpoint : Nat) (b : SetupBytes) :
    WellFormed q (decodeUrb x endpoint b) = true := by
  unfold decodeUrb
  split_ifs with h0 h1 h2
  · rfl
  · rfl
  · rfl
  · exact decide_eq_true ⟨h0, h1, h2⟩

theorem wellFormed_decodeCommand (k : Tag) {d : Apdu} (hfits : requestFits d.request = true) :
    WellFormed q (decodeCommand k d) = true := by
  unfold decodeCommand
  split_ifs with hversion hregister hauthenticate hcheck henforce hsign
  · exact hfits
  · exact hfits
  · exact hfits
  · exact hfits
  · exact hfits
  · exact decide_eq_true ⟨hfits, hcheck, henforce, hsign⟩
  · exact decide_eq_true ⟨hfits, hversion, hregister, hauthenticate⟩

/-- Only a control URB carries another request than itself, and that is a SETUP row. -/
theorem wellFormed_request {i : Instr} (h : WellFormed q i = true) :
    WellFormed q (i.request q) = true := by
  cases i
  case urbControl x b => exact wellFormed_decodeFields q x b.fields
  all_goals exact h

end

/-- A decoded APDU is the row of some header whose request fits its length field. -/
theorem decode_apdu_ok {k : Tag} {a : Bytes} {i : Instr} (h : decode (.apdu k a) = .ok i) :
    ∃ d, requestFits d.request = true ∧ i = decodeCommand k d := by
  cases hd : decodeApdu a with
  | error e => rw [decode, hd] at h; cases h
  | ok d => rw [decode, hd] at h; cases h; exact ⟨d, decodeApdu_fits hd, rfl⟩

theorem wellFormed_of_decode (q : RequestCodes) {c : PortCall} {i : Instr}
    (h : decode c = .ok i) : WellFormed q i = true := by
  cases c with
  | handleMessage x endpoint b => cases h; exact wellFormed_decodeUrb q x endpoint b
  | removeWaitingRequest k id => cases h; rfl
  | busId k => cases h; rfl
  | deviceSummary k => cases h; rfl
  | apdu k a =>
    obtain ⟨d, hfits, rfl⟩ := decode_apdu_ok h
    exact wellFormed_decodeCommand q k hfits

/-- Settles O4: the fields determine the bytes, and the row keeps every field. -/
theorem setupBytesReencodeExactly : Obligations.SetupBytesReencodeExactly := by
  intro q x b
  rw [decodeSetup, encode_decodeFields, encodeControl, encodeFields_fields]

/-- Settles O5, call by call; a control URB's request through its SETUP row. -/
theorem decodedInstructionsAreWellFormed : Obligations.DecodedInstructionsAreWellFormed := by
  intro q c i h
  have hi := wellFormed_of_decode q h
  exact ⟨hi, wellFormed_request q hi⟩

/-! ### What the effect of a control URB depends on (R107) -/

/-- The map reads three fields. -/
theorem classify_congr (q : RequestCodes) {p p' : Setup} (hr : p.recipient = p'.recipient)
    (hb : p.bRequest = p'.bRequest) (ht : p.descType = p'.descType) :
    classify q p = classify q p' := by
  simp only [classify, classifyDevice, classifyInterface, hr, hb, ht]

namespace Machine

/-- What a SETUP row comes to: the data of its reply or the reason of its fatal error. The index is that
of a STRING request (R155). -/
def rowOutcome (d : DescriptorParams) (descIndex : Byte) : SetupRow → Except FatalReason Bytes
  | .getDescriptorDevice => .ok Rom.device
  | .getDescriptorConfiguration => .ok (Rom.configurationBlock d)
  | .getDescriptorString =>
      if descIndex.toNat < Config.stringCount then .ok (Rom.string descIndex.toNat)
      else .error .invalidStringIndex
  | .fatalDeviceGetDescriptorType => .error .invalidDescriptorType
  | .setConfiguration => .ok []
  | .getStatus => .ok [0x01]
  | .fatalDeviceUnknownRequest => .error .unknownRequest
  | .setIdle => .ok []
  | .setProtocol => .ok []
  | .getDescriptorHidReport => .ok Rom.reportMap
  | .fatalInterfaceGetDescriptorType => .error .invalidDescriptorType
  | .fatalInterfaceUnknownRequest => .error .unknownRequest
  | .fatalUnknownRecipient => .error .unknownRecipient

/-- Only a STRING request's outcome depends on the index. -/
theorem rowOutcome_congr (d : DescriptorParams) {i j : Byte} {row : SetupRow}
    (h : row = .getDescriptorString → i = j) : rowOutcome d i row = rowOutcome d j row := by
  cases row
  case getDescriptorString => rw [h rfl]
  all_goals rfl

/-- The end of a CTRL step (R181): the reply or the fatal error. -/
def State.conclude (s : State) (x : Xfer) : Except FatalReason Bytes → State
  | .ok data => s.reply x data
  | .error r => s.raiseFatal r

/-- A control URB comes to what its row comes to; the latch it was read through is forgotten. -/
theorem exec_urbControl (x : Xfer) (b : SetupBytes) (s : State) :
    exec (.urbControl x b) s = s.serve fun t => t.conclude x
      (rowOutcome s.params.descriptors b.fields.descIndex
        (classify s.params.codes b.fields)) := by
  cases hf : s.fatal with
  | none =>
    rw [State.serve_running hf]
    simp only [exec, execUrbControl, hf, runControl, State.latchSetup_setup,
      State.latchSetup_params]
    have hlatch : (s.latchSetup b.fields).fatal = none := hf
    cases classify s.params.codes b.fields
    case getDescriptorString =>
      dsimp only [execGetDescriptorString, rowOutcome]
      rw [State.serve_running hlatch]
      split_ifs <;> rfl
    all_goals exact State.serve_running hlatch _
  | some r =>
    rw [State.serve_fatal hf]
    simp only [exec, execUrbControl, hf]

end Machine

/-- Settles O19: both URBs have the same row, and its outcome at the same index if it is STRING. -/
theorem unconsultedSetupFieldsChangeNothing : Obligations.UnconsultedSetupFieldsChangeNothing := by
  intro x b c s hr hb ht hi
  rw [exec_urbControl, exec_urbControl, ← classify_congr s.params.codes hr hb ht,
    rowOutcome_congr s.params.descriptors hi]

/-! ### The layout of a REGISTER response (R115) -/

namespace Machine

theorem be256_length (v : BitVec 256) : (be256 v).length = 32 := by
  rw [be256, List.length_map, List.length_range]

/-- `0x04` and two coordinates. -/
theorem publicKey_length (U : Units) (kp : KeyPair) : (publicKey U kp).length = 65 := by
  simp only [publicKey, List.length_cons, List.length_append, be256_length]

/-- What follows a field begins where the field ends. -/
theorem drop_field {bytes field after : Bytes} {n : Nat} (h : bytes.drop n = field ++ after) :
    bytes.drop (n + field.length) = after := by
  rw [← List.drop_drop, h, List.drop_left]

theorem take_field {bytes field after : Bytes} {n : Nat} (h : bytes.drop n = field ++ after) :
    (bytes.drop n).take field.length = field := by
  rw [h, List.take_left]

theorem getD_of_drop_eq_cons {bytes after : Bytes} {v : Byte} {n : Nat}
    (h : bytes.drop n = v :: after) : bytes.getD n 0 = v := by
  have hget : (bytes.drop n)[0]? = some v := by rw [h]; rfl
  rw [List.getElem?_drop, Nat.add_zero] at hget
  rw [List.getD_eq_getElem?_getD, hget, Option.getD_some]

theorem registerResponse_eq (U : Units) (kp : KeyPair) (handle cert sig : Bytes) :
    registerResponse U kp handle cert sig =
      [0x05] ++ (publicKey U kp ++ ([BitVec.ofNat 8 handle.length] ++ (handle ++ (cert ++
        (sig ++ [0x90, 0x00]))))) := by
  simp only [registerResponse, response, List.append_assoc]
  rfl

end Machine

/-- Settles O35, field after field: each begins where the one before it ends. -/
theorem registerResponseLayout : Obligations.RegisterResponseLayout := by
  intro U kp handle cert sig hlen
  have hkey := publicKey_length U kp
  generalize hbytes : registerResponse U kp handle cert sig = bytes
  rw [registerResponse_eq] at hbytes
  have h0 : bytes.drop 0 = _ := hbytes.symm
  have h1 : bytes.drop 1 = _ := drop_field h0
  have h66 : bytes.drop 66 = _ := hkey ▸ drop_field h1
  have h67 : bytes.drop 67 = _ := drop_field h66
  have hcert := drop_field h67
  have hsig := drop_field hcert
  refine ⟨?_, getD_of_drop_eq_cons h0, getD_of_drop_eq_cons h1, ?_, ?_, take_field h67,
    take_field hcert, take_field hsig, drop_field hsig⟩
  · simp only [← hbytes, List.length_append, List.length_cons, List.length_nil, hkey]
    omega
  · rw [← hkey]
    exact take_field h1
  · rw [getD_of_drop_eq_cons h66, BitVec.toNat_ofNat]
    omega

/-! ### The rows of AUTHENTICATE (R112; 44_u2f_commands.md R240 to R244) -/

namespace Machine

section
variable {U : Units} {k : Tag} {request : Bytes} {branch : Challenge → KeyHandle → State → State}
  {s : State}

theorem authenticate_of_none (h : openAssertion U s.sk request = none) :
    authenticate U k request branch s = s.respond k [0x6A, 0x80] := by
  simp only [authenticate, h]
  rfl

theorem authenticate_of_some {c : Challenge} {kh : KeyHandle}
    (h : openAssertion U s.sk request = some (c, kh)) :
    authenticate U k request branch s = branch c kh s := by
  simp only [authenticate, h]

end

end Machine

/-- Settles O37: P1 is compared with its codes in the order of `decodeCommand`; then the common checks
pass or not, and each row goes on from there. -/
theorem authenticateRowsAnswer : Obligations.AuthenticateRowsAnswer := by
  refine ⟨fun k cla p1 p2 req le => rfl, fun k cla p1 p2 req le s hf => ?_⟩
  simp only [exec, execU2fAuthenticateCheckOnly, execU2fAuthenticateOtherP1,
    execU2fAuthenticateEnforce, execU2fAuthenticateSign, State.serve_running hf]
  cases h : openAssertion Config.units s.sk req with
  | none =>
    simp only [authenticate_of_none h]
    exact ⟨rfl, rfl, rfl, rfl⟩
  | some p =>
    obtain ⟨c, kh⟩ := p
    simp only [authenticate_of_some h]
    exact ⟨rfl, rfl, rfl, rfl⟩

/-! ### The fields of the setup bytes, and the endpoint (R100, R101, R103, R108) -/

/-- A little-endian pair is its number (R100). -/
theorem rd16le_toNat (first second : Byte) :
    (rd16le first second).toNat = first.toNat + 256 * second.toNat := by
  rw [rd16le, BitVec.toNat_append, ← Nat.shiftLeft_add_eq_or_of_lt first.isLt, Nat.shiftLeft_eq]
  omega

/-- A bit field is a quotient and a remainder (R101). -/
theorem extractLsb'_toNat_div_mod {n : Nat} (v : BitVec n) (start len : Nat) :
    (v.extractLsb' start len).toNat = v.toNat / 2 ^ start % 2 ^ len := by
  rw [BitVec.extractLsb'_toNat, Nat.shiftRight_eq_div_pow]

/-- Settles O1. -/
theorem setupFieldsOfTheBytes : Obligations.SetupFieldsOfTheBytes := by
  intro b
  refine ⟨rfl, rfl, rd16le_toNat _ _, rd16le_toNat _ _, rd16le_toNat _ _, ?_, ?_, ?_,
    high_append _ _, low_append _ _⟩
  · exact (extractLsb'_toNat_div_mod b.b0 0 5).trans (by omega)
  · exact extractLsb'_toNat_div_mod b.b0 5 2
  · have := b.b0.isLt
    exact (extractLsb'_toNat_div_mod b.b0 7 1).trans (by omega)

/-- Settles O6: the endpoint's number decides `decodeUrb`, and the three rows but CONTROL drop the setup
bytes. -/
theorem endpointAloneSelectsTheUrbRow : Obligations.EndpointAloneSelectsTheUrbRow := by
  intro x b e
  refine ⟨?_, ?_, ?_, fun he => ?_, fun q => rfl, fun c s => ⟨rfl, rfl, rfl⟩⟩
  · rintro rfl; rfl
  · rintro rfl; rfl
  · rintro rfl; rfl
  · have h0 : e ≠ Config.epCtrl := by simp only [Config.epCtrl]; omega
    have h1 : e ≠ Config.epIn := by simp only [Config.epIn]; omega
    have h2 : e ≠ Config.epOut := by simp only [Config.epOut]; omega
    simp only [decode, decodeUrb, h0, h1, h2, if_false]

end Sys2Proof
end

section
/-! The statements of 41_control_requests.md: which SETUP row the packets of a request decode to, and what
that row replies or raises. -/

namespace Sys2Proof

open Machine

/-! ### The instruction of a SETUP row, by its packet (30_encoding.md R103, R106) -/

/-- The high byte of `wValue` is the fourth of the packet. -/
theorem SetupBytes.fields_descType (b : SetupBytes) : b.fields.descType = b.b3 := high_append _ _

/-- The low byte of `wValue` is the third of the packet. -/
theorem SetupBytes.fields_descIndex (b : SetupBytes) : b.fields.descIndex = b.b2 := low_append _ _

/-- A row with its operands, type and index read straight from the bytes. -/
def SetupRow.instr (x : Xfer) (b : SetupBytes) : SetupRow → Instr
  | .getDescriptorDevice => .getDescriptorDevice x b.fields.attrs b.b2
  | .getDescriptorConfiguration => .getDescriptorConfiguration x b.fields.attrs b.b2
  | .getDescriptorString => .getDescriptorString x b.fields.attrs b.b2
  | .fatalDeviceGetDescriptorType => .fatalDeviceGetDescriptorType x b.fields.attrs b.b3 b.b2
  | .setConfiguration => .setConfiguration x b.fields.attrs b.fields.wValue
  | .getStatus => .getStatus x b.fields.attrs b.fields.wValue
  | .fatalDeviceUnknownRequest =>
      .fatalDeviceUnknownRequest x b.fields.attrs b.b1 b.fields.wValue
  | .setIdle => .setIdle x b.fields.attrs b.fields.wValue
  | .setProtocol => .setProtocol x b.fields.attrs b.fields.wValue
  | .getDescriptorHidReport => .getDescriptorHidReport x b.fields.attrs b.b2
  | .fatalInterfaceGetDescriptorType =>
      .fatalInterfaceGetDescriptorType x b.fields.attrs b.b3 b.b2
  | .fatalInterfaceUnknownRequest =>
      .fatalInterfaceUnknownRequest x b.fields.attrs b.b1 b.fields.wValue
  | .fatalUnknownRecipient =>
      .fatalUnknownRecipient x b.fields.attrs b.fields.recipient b.b1 b.fields.wValue

section
variable {q : RequestCodes} {b : SetupBytes}

theorem decodeSetup_eq_instr (q : RequestCodes) (x : Xfer) (b : SetupBytes) :
    decodeSetup q x b = (classify q b.fields).instr x b := by
  simp only [decodeSetup, decodeFields, b.fields_descType, b.fields_descIndex]
  cases classify q b.fields <;> rfl

/-- With distinct codes a packet decodes to the row that takes it. -/
theorem decodeSetup_of_takes (hq : q.Distinct) (x : Xfer) (row : SetupRow)
    (h : row.Takes q b.fields) : decodeSetup q x b = row.instr x b := by
  rw [decodeSetup_eq_instr, classify_of_takes hq h]

/-- GET_DESCRIPTOR(STRING) is looked for before any code that could be equal to its own. -/
theorem classify_getDescriptorString (hr : b.fields.recipient = q.recDevice)
    (hb : b.b1 = q.reqGetDescriptor) (ht : b.b3 = Config.descString) :
    classify q b.fields = .getDescriptorString := by
  have hb' : b.fields.bRequest = q.reqGetDescriptor := hb
  simp [classify_device hr, classifyDevice, hb', b.fields_descType, ht]

/-- Besides the codes that nobody serves, REC_ENDPOINT is an unknown recipient (R166). -/
theorem takes_fatalUnknownRecipient (hq : q.Distinct)
    (h : b.fields.recipient = q.recEndpoint ∨ b.fields.recipient ∉ [q.recDevice, q.recInterface]) :
    SetupRow.fatalUnknownRecipient.Takes q b.fields := by
  rcases h with h | h
  · obtain ⟨-, hdevice, hinterface⟩ := hq.recipients
    exact ⟨h.trans_ne hdevice, h.trans_ne hinterface⟩
  · simpa [SetupRow.Takes] using h

end

/-! ### What a row comes to in a running state (R153 to R166) -/

namespace Machine

section
variable {s : State}

/-- An instruction that replies has the whole effect of a reply, and no other. -/
theorem exec_replied {i : Instr} {x : Xfer} {data : Bytes} (hm : s.mem.wf)
    (h : exec i s = .next (s.reply x data)) : ∃ t, exec i s = .next t ∧ Replied s t x data :=
  ⟨_, h, State.reply_replied hm x data⟩

variable (hf : s.fatal = none)
include hf

theorem serve_reply (x : Xfer) (data : Bytes) :
    s.serve (·.reply x data) = .next (s.reply x data) :=
  State.serve_running hf _

theorem serve_raiseFatal (r : FatalReason) : s.serve (·.raiseFatal r) = .next (s.raiseFatal r) :=
  State.serve_running hf _

/-- The block is that of the machine's own parameters, whatever they are (20_memory.md R53). -/
theorem exec_getDescriptorConfiguration (x : Xfer) (a : Attrs) (d : Byte) :
    exec (.getDescriptorConfiguration x a d) s =
      .next (s.reply x (Rom.configurationBlock s.params.descriptors)) :=
  State.serve_running hf fun t => t.reply x (Rom.configurationBlock t.params.descriptors)

theorem exec_getDescriptorString_of_le (x : Xfer) (a : Attrs) {d : Byte} (hd : d.toNat ≤ 5) :
    exec (.getDescriptorString x a d) s = .next (s.reply x (Rom.string d.toNat)) := by
  have hserved : d.toNat < Config.stringCount := Nat.lt_succ_of_le hd
  simp only [exec, execGetDescriptorString, State.serve_running hf, if_pos hserved]

theorem exec_getDescriptorString_of_gt (x : Xfer) (a : Attrs) {d : Byte} (hd : 5 < d.toNat) :
    exec (.getDescriptorString x a d) s = .next (s.raiseFatal .invalidStringIndex) := by
  have hover : ¬ d.toNat < Config.stringCount := Nat.not_lt.2 hd
  simp only [exec, execGetDescriptorString, State.serve_running hf, if_neg hover]

end

end Machine

/-- Settles O13: the three packets by the condition of their row, the three meanings by `reply`. -/
theorem descriptorRequestsReplyTheirImage : Obligations.DescriptorRequestsReplyTheirImage := by
  refine ⟨fun q x b hq hb => ?_, fun x a d s hf hm => ?_⟩
  · have ht := b.fields_descType
    exact ⟨fun hr =>
        ⟨fun h => decodeSetup_of_takes hq x .getDescriptorDevice ⟨hr, hb, ht.trans h⟩,
          fun h => decodeSetup_of_takes hq x .getDescriptorConfiguration ⟨hr, hb, ht.trans h⟩⟩,
      fun hr h => decodeSetup_of_takes hq x .getDescriptorHidReport ⟨hr, hb, ht.trans h⟩⟩
  · exact ⟨exec_replied hm (serve_reply hf x _),
      exec_replied hm (exec_getDescriptorConfiguration hf x a d),
      exec_replied hm (serve_reply hf x _)⟩

/-- Settles O14: the index is compared with 5 by the row itself, not by the decoder. -/
theorem stringRequestRepliesOrIsFatal : Obligations.StringRequestRepliesOrIsFatal := by
  refine ⟨fun q x b hr hb ht => ?_, fun x a d s hf hm => ⟨fun hd => ?_, fun hd => ?_⟩⟩
  · rw [decodeSetup_eq_instr, classify_getDescriptorString hr hb ht, SetupRow.instr]
  · exact exec_replied hm (exec_getDescriptorString_of_le hf x a hd)
  · exact exec_getDescriptorString_of_gt hf x a hd

/-- Settles O15: the four packets by the condition of their row, the four meanings by `reply`. -/
theorem noOpRequestsFinishAndStatusIsOneByte :
    Obligations.NoOpRequestsFinishAndStatusIsOneByte := by
  refine ⟨fun q x b hq => ⟨fun hr => ⟨fun hb => ?_, fun hb => ?_⟩,
    fun hr => ⟨fun hb => ?_, fun hb => ?_⟩⟩, fun x a v s hf hm => ?_⟩
  · exact decodeSetup_of_takes hq x .setConfiguration ⟨hr, hb⟩
  · exact decodeSetup_of_takes hq x .getStatus ⟨hr, hb⟩
  · exact decodeSetup_of_takes hq x .setIdle ⟨hr, hb⟩
  · exact decodeSetup_of_takes hq x .setProtocol ⟨hr, hb⟩
  · exact ⟨exec_replied hm (serve_reply hf x _), exec_replied hm (serve_reply hf x _),
      exec_replied hm (serve_reply hf x _), exec_replied hm (serve_reply hf x _)⟩

/-- Settles O16: each packet by the condition of its row; the next state is `raiseFatal` written out. -/
theorem fatalControlRowsRaise : Obligations.FatalControlRowsRaise := by
  refine ⟨fun q x b hq => ⟨fun hr => ⟨fun hb ht => ?_, fun hb => ?_⟩,
    fun hr => ⟨fun hb ht => ?_, fun hb => ?_⟩, fun h => ?_⟩, fun x a t d n v r s hf => ?_⟩
  · have ht : b.fields.descType ∉ _ := b.fields_descType.symm ▸ ht
    exact decodeSetup_of_takes hq x .fatalDeviceGetDescriptorType ⟨hr, hb, by simpa using ht⟩
  · simp only [List.mem_cons, List.not_mem_nil, or_false, not_or] at hb
    obtain ⟨hstatus, hget, hset⟩ := hb
    exact decodeSetup_of_takes hq x .fatalDeviceUnknownRequest ⟨hr, hget, hset, hstatus⟩
  · exact decodeSetup_of_takes hq x .fatalInterfaceGetDescriptorType
      ⟨hr, hb, b.fields_descType.trans_ne ht⟩
  · simp only [List.mem_cons, List.not_mem_nil, or_false, not_or] at hb
    obtain ⟨hget, hidle, hprotocol⟩ := hb
    exact decodeSetup_of_takes hq x .fatalInterfaceUnknownRequest ⟨hr, hidle, hprotocol, hget⟩
  · exact decodeSetup_of_takes hq x .fatalUnknownRecipient (takes_fatalUnknownRecipient hq h)
  · exact ⟨serve_raiseFatal hf _, serve_raiseFatal hf _, serve_raiseFatal hf _,
      serve_raiseFatal hf _, serve_raiseFatal hf _⟩

end Sys2Proof
end

section
/-! The statements of 42_endpoint_transfers.md: which URB a FINISH is for, what a control URB comes to,
and what the delivery, intake and cancel agents do at each of their steps. -/

namespace Sys2Proof

open Machine

namespace Machine

/-! ### Which FINISH a step fires (R182, R185, R187) -/

/-- From `s` to `t` events were added, at most one of them a FINISH, and that one as `P` says of its URB
and its written length. -/
def Fires (P : Xfer → Nat → Prop) (s t : State) : Prop :=
  ∃ events, t.trace = s.trace ++ events ∧ (events.filter Event.isFinish).length ≤ 1 ∧
    ∀ x n bytes, Event.finish x n bytes ∈ events → P x n

/-- From `s` to `t` events were added, no FINISH among them. -/
abbrev Silent : State → State → Prop := Fires fun _ _ => False

section
variable {P Q : Xfer → Nat → Prop} {s t u : State}

theorem Fires.mono (h : Fires P s t) (hPQ : ∀ x n, P x n → Q x n) : Fires Q s t := by
  obtain ⟨events, ht, hone, hP⟩ := h
  exact ⟨events, ht, hone, fun x n bytes he => hPQ x n (hP x n bytes he)⟩

theorem Fires.of_trace_eq (h : t.trace = s.trace) : Fires P s t :=
  ⟨[], by simp [h], by simp, by simp⟩

/-- An event that is no FINISH. -/
theorem Fires.of_event {e : Event} (ht : t.trace = s.trace ++ [e])
    (he : e.isFinish = false := by rfl) : Fires P s t := by
  refine ⟨[e], ht, by simp [he], fun x n bytes h => ?_⟩
  cases List.mem_singleton.1 h
  cases he

/-- The FINISH itself. -/
theorem Fires.of_finish {x : Xfer} {n : Nat} {bytes : Bytes} (hP : P x n)
    (ht : t.trace = s.trace ++ [.finish x n bytes]) : Fires P s t := by
  refine ⟨_, ht, List.length_filter_le _ _, fun y m bytes' h => ?_⟩
  cases List.mem_singleton.1 h
  exact hP

/-- What is silent adds nothing to the count. -/
theorem Silent.trans (h : Silent s t) (h' : Fires P t u) : Fires P s u := by
  obtain ⟨events, ht, -, hnone⟩ := h
  obtain ⟨more, hu, hone, hP⟩ := h'
  have hquiet : events.filter Event.isFinish = [] := by
    refine List.filter_eq_nil_iff.2 fun e he hfinish => ?_
    cases e with
    | finish x n bytes => exact hnone x n bytes he
    | _ => cases hfinish
  refine ⟨events ++ more, by rw [hu, ht, List.append_assoc], ?_, fun x n bytes he => ?_⟩
  · rwa [List.filter_append, hquiet, List.nil_append]
  · exact (List.mem_append.1 he).elim (fun he => (hnone x n bytes he).elim) (hP x n bytes)

theorem Fires.accept (s : State) (c : Call) : Fires P s (s.accept c) := .of_event rfl

theorem Fires.takeAnswer (s : State) (c : Tag) (a : Answer) : Fires P s (s.takeAnswer c a) :=
  .of_event rfl

theorem Fires.cancelAnswered (s : State) (k : Tag) (id : UrbId) (b : Bool) :
    Fires P s (s.cancelAnswered k id b) := by
  cases b <;> exact .of_event rfl

theorem Fires.acquire (s : State) : Fires P s s.acquire := by
  rcases s.acquire_cases with h | ⟨x, rest, -, -, -, h⟩ <;> rw [h]
  · exact .of_trace_eq rfl
  · exact .of_event rfl

theorem U2fEnds.fires {k : Tag} (h : U2fEnds k s t) : Fires P s t := by
  cases h with
  | responds data w hw h => exact h ▸ .of_event rfl
  | fatal r h => exact h ▸ .of_event rfl
  | calls d w c h => exact h ▸ .of_event rfl

/-- A U2F call finishes no URB; the draw it may use is no event. -/
theorem U2fRuns.fires {k : Tag} (h : U2fRuns k s t) : Fires P s t :=
  h.elim U2fEnds.fires U2fEnds.fires

/-- An instruction's own step finishes only the EP0 URB it replies to (R182). -/
theorem ExecRuns.fires {i : Instr} (h : ExecRuns i s t) :
    Fires (fun x n => i.replyTo = some x ∧ n ≤ x.buf.len) s t := by
  cases h with
  | reply x data hx h => exact h ▸ .of_finish ⟨hx, Nat.min_le_right _ _⟩ rfl
  | fatal r h => exact h ▸ .of_event rfl
  | deliver x b hx h => exact h ▸ .of_trace_eq rfl
  | intake x b hx h => exact h ▸ .of_event rfl
  | cancel k id hx h => exact h ▸ .of_event rfl
  | returns k v h => exact h ▸ .of_event rfl
  | u2f k h => exact h.fires

/-- An answer finishes only the WAITING head, with data, or an intake (R185, R187). -/
theorem ResumeRuns.fires {c : Tag} {a : Answer} (h : ResumeRuns c a s t) :
    Fires (fun x n =>
      (∃ rest data, s.dlvq = ⟨x, .waiting c⟩ :: rest ∧ a = .response (some data) ∧
        n = copyLen x.buf data) ∨
      (s.waitingFor c = some (.intake x) ∧ a = .handled ∧ n = 0)) s t := by
  cases h with
  | discarded h => exact h ▸ .of_event rfl
  | delivered x rest data hq ha h =>
    have hanswered : Silent s { s with dlvq := rest, trace := s.trace ++ [.answered c a] } :=
      .of_event rfl
    exact h ▸ hanswered.trans (.of_finish (.inl ⟨rest, data, hq, ha, rfl⟩) rfl)
  | timedOut x rest hq ha h => exact h ▸ .of_event rfl
  | intake x hw ha h =>
    exact h ▸ Silent.trans (.takeAnswer s c a) (.of_finish (.inr ⟨hw, ha, rfl⟩) rfl)
  | cancel k id b hw ha h => exact h ▸ Silent.trans (.takeAnswer s c a) (.cancelAnswered _ k id b)
  | u2f k d w hw h => exact Silent.trans (.takeAnswer s c a) h.fires

end

end Machine

/-- Settles O58, along the ways a step can go; an instruction that replies is the URB just arrived. -/
theorem finishFiresOnlyForItsUrb : Obligations.FinishFiresOnlyForItsUrb := by
  intro s t h
  cases step_cases h with
  | idle hi h => exact Fires.of_trace_eq (h ▸ rfl)
  | instr c more i hi hd h =>
    refine Silent.trans (.accept { s with inputs := more } c) ?_
    rcases exec_cases h with ⟨hf, h⟩ | ⟨-, rfl⟩
    · refine h.fires.mono fun x n ⟨hx, hn⟩ => ⟨hf, .inl ?_⟩
      obtain ⟨id, b, buf, rfl, rfl⟩ :=
        arriving_of_decode_replyTo (s := { s with inputs := more }) hd hx
      exact ⟨id, b, buf, more, hi, rfl, hn⟩
    · exact Fires.of_trace_eq rfl
  | malformed c more e hi hd h =>
    refine Silent.trans (.accept { s with inputs := more } c) ?_
    rcases rejectApdu_cases h with ⟨-, rfl⟩ | ⟨-, rfl⟩
    · exact Fires.of_event rfl
    · exact Fires.of_trace_eq rfl
  | acquire more hi h => exact h ▸ Fires.acquire { s with inputs := more }
  | answer c a more hi h =>
    subst h
    rcases State.resume_cases Config.units { s with inputs := more } c a with ⟨hf, h⟩ | ⟨-, h⟩
    · refine h.fires.mono fun x n hcause => ⟨hf, .inr ?_⟩
      rcases hcause with ⟨rest, data, hq, rfl, hn⟩ | ⟨hw, rfl, hn⟩
      · exact .inl ⟨c, rest, data, more, hq, hi, hn⟩
      · exact .inr ⟨c, more, hw, hi, hn⟩
    · exact h ▸ Fires.of_event rfl
  | reset key more hi h => exact h ▸ Fires.of_event rfl

namespace Machine

/-! ### What a control URB comes to (R181; 60_exceptions.md R276) -/

/-- Only what a request does in this very state matters. -/
theorem State.serve_congr {s : State} {f g : State → State} (h : f s = g s) :
    s.serve f = s.serve g := by
  cases hf : s.fatal with
  | none => rw [State.serve_running hf, State.serve_running hf, h]
  | some r => rw [State.serve_fatal hf, State.serve_fatal hf]

/-- A SETUP row, run by itself, comes to its outcome. -/
theorem exec_decodeSetup (q : RequestCodes) (x : Xfer) (b : SetupBytes) (s : State) :
    exec (decodeSetup q x b) s = s.serve fun t => t.conclude x
      (rowOutcome s.params.descriptors b.fields.descIndex (classify q b.fields)) := by
  rw [decodeSetup, decodeFields]
  cases classify q b.fields <;> dsimp only [exec]
  case getDescriptorString =>
    refine State.serve_congr ?_
    dsimp only [rowOutcome]
    split_ifs <;> rfl
  all_goals exact State.serve_congr rfl

section
variable {d : OpenParams} {p : Setup}

/-- The checks of R276 for the device recipient. The facts about codes rewrite the tests, not the fields:
two codes may be equal. -/
theorem controlOutcome_device (h : p.recipient = d.codes.recDevice) :
    controlOutcome d p = rowOutcome d.descriptors p.descIndex (classifyDevice d.codes p) := by
  unfold classifyDevice
  split_ifs with hget hdevice hconfiguration hstring hset hstatus <;>
    simp only [controlOutcome, rowOutcome, List.mem_cons, eq_true h, true_or, not_true, if_false,
      if_true]
  · simp [eq_true hget, hdevice]
  · simp [eq_true hget, hconfiguration]
  · by_cases hi : 5 < p.descIndex.toNat
    · simp [eq_true hget, hstring, hi, Config.stringCount, Nat.not_lt.2 hi]
    · simp [eq_true hget, hstring, hi, Config.stringCount, Nat.lt_succ_of_le (Nat.not_lt.1 hi)]
  · simp [eq_true hget, hdevice, hconfiguration, hstring]
  · simp [hget, eq_true hset]
  · simp [hget, hset, eq_true hstatus]
  · simp [hget, hset, hstatus]

/-- The checks of R276 for the interface recipient. -/
theorem controlOutcome_interface (hd : p.recipient ≠ d.codes.recDevice)
    (h : p.recipient = d.codes.recInterface) :
    controlOutcome d p = rowOutcome d.descriptors p.descIndex (classifyInterface d.codes p) := by
  unfold classifyInterface
  split_ifs with hidle hprotocol hget hreport <;>
    simp only [controlOutcome, rowOutcome, List.mem_cons, hd, eq_true h, true_or, or_true, not_true,
      if_false]
  · simp [eq_true hidle]
  · simp [eq_true hprotocol]
  · simp [hidle, hprotocol, eq_true hget, hreport]
  · simp [hidle, hprotocol, eq_true hget, hreport]
  · simp [hidle, hprotocol, hget]

/-- The check order of R276, which knows no rows, comes to what the chosen row comes to. -/
theorem controlOutcome_eq (d : OpenParams) (p : Setup) :
    controlOutcome d p = rowOutcome d.descriptors p.descIndex (classify d.codes p) := by
  unfold classify
  split_ifs with hd hi
  · exact controlOutcome_device hd
  · exact controlOutcome_interface hd hi
  · simp [controlOutcome, hd, hi, rowOutcome]

end

end Machine

/-- Settles O17: both come to the outcome of the same row. -/
theorem controlUrbRunsItsRequest : Obligations.ControlUrbRunsItsRequest := by
  intro x b s
  rw [exec_urbControl, exec_decodeSetup]

/-- Settles O18: the outcome of the row is that of the check order, and it is a reply or a fatal error. -/
theorem controlUrbCompletesInCheckOrder : Obligations.ControlUrbCompletesInCheckOrder := by
  intro x b s hf hm
  have hexec := exec_urbControl x b s
  rw [State.serve_running hf, ← controlOutcome_eq] at hexec
  refine ⟨_, hexec, fun data h => ?_, fun r h => ?_⟩ <;> rw [h]
  · exact State.reply_replied hm x data
  · rfl

namespace Machine

/-! ### The step at an answer, and at the scheduling of the head (60_exceptions.md R275) -/

section
variable {s : State} {more : List Input}

theorem step_of_acquire (hi : s.inputs = .acquire :: more) :
    step s = .next (State.acquire { s with inputs := more }) := by
  rw [step, hi]
  rfl

theorem step_of_answer {c : Tag} {a : Answer} (hi : s.inputs = .answer c a :: more) :
    step s = .next (State.resume Config.units { s with inputs := more } c a) := by
  rw [step, hi]
  rfl

/-- The WAITING head takes the answer to its own call. -/
theorem State.resume_of_head {U : Units} {x : Xfer} {c : Tag} {rest : List DlvEntry}
    (hf : s.fatal = none) (hq : s.dlvq = ⟨x, .waiting c⟩ :: rest) (r : Option Bytes) :
    s.resume U c (.response r) = s.deliverAnswer c x rest r := by
  simp [State.resume, hf, hq]

/-- An answer that neither a delivery nor an agent waits for is discarded (R190). -/
theorem State.resume_of_unawaited {U : Units} {c : Tag} (a : Answer)
    (hq : ∀ e ∈ s.dlvq, e.phase ≠ .waiting c) (hw : s.waitingFor c = none) :
    s.resume U c a = s.discard c a := by
  have hagent : s.resumeAgent U c a = s.discard c a := by simp only [State.resumeAgent, hw]
  unfold State.resume
  split
  · rfl
  · split
    · next x c' rest r hdlvq =>
      have hne : c' ≠ c := fun h => hq ⟨x, .waiting c'⟩ (by simp [hdlvq]) (h ▸ rfl)
      rw [if_neg hne, hagent]
    · exact hagent

/-- An intake or cancel agent runs on at H's answer to its call. -/
theorem step_of_agent_answer {c : Tag} {a : Answer} {g : Agent} {run : State → State}
    (hf : s.fatal = none) (hw : s.waitingFor c = some g) (hi : s.inputs = .answer c a :: more)
    (hr : g.resume Config.units a = some run) (ha : ∀ r, a ≠ .response r) :
    step s = .next (run (State.takeAnswer { s with inputs := more } c a)) := by
  rw [step_of_answer hi, State.resume_eq_resumeAgent (s := { s with inputs := more }) hf ha,
    State.resumeAgent_of_waiting (s := { s with inputs := more }) hw hr]

end

/-! ### The lock (R184) -/

section
variable {s : State}

theorem State.acquire_of_queued {x : Xfer} {rest : List DlvEntry} (hf : s.fatal = none)
    (hq : s.dlvq = ⟨x, .queued⟩ :: rest) (hrest : ∀ e ∈ rest, e.phase = .queued) :
    s.acquire = { s with
      dlvq := ⟨x, .waiting s.fresh⟩ :: rest
      fresh := s.fresh + 1
      trace := s.trace ++ [.callH s.fresh (.getResponse x.id 1000)] } := by
  have hall : rest.all (fun e => e.phase = .queued) = true := by simpa using hrest
  simp only [State.acquire, hf, hq, hall, if_true]
  rfl

/-- Without a QUEUED head nothing is acquired. -/
theorem State.acquire_of_no_queued_head (h : ∀ x rest, s.dlvq ≠ ⟨x, .queued⟩ :: rest) :
    s.acquire = s := by
  rcases s.acquire_cases with ha | ⟨x, rest, -, hq, -⟩
  · exact ha
  · exact absurd hq (h x rest)

theorem State.not_queued_head_of_lockHeld (h : s.lockHeld = true) (x : Xfer)
    (rest : List DlvEntry) : s.dlvq ≠ ⟨x, .queued⟩ :: rest := by
  intro hq
  simp [State.lockHeld, hq] at h

end

end Machine

/-- Settles O21: the head acquires when it is QUEUED, and the other two queues have no QUEUED head. -/
theorem onlyTheHeadAcquiresTheLock : Obligations.OnlyTheHeadAcquiresTheLock := by
  intro s x rest more hf hi
  rw [step_of_acquire hi]
  refine ⟨fun hq hrest => ?_, fun hlock => ?_, fun hempty => ?_⟩
  · rw [State.acquire_of_queued (s := { s with inputs := more }) hf hq hrest]
  · exact congrArg _ (State.acquire_of_no_queued_head (s := { s with inputs := more })
      (State.not_queued_head_of_lockHeld hlock))
  · exact congrArg _ (State.acquire_of_no_queued_head (s := { s with inputs := more })
      (by simp [hempty]))

/-- Settles O22: but for the SETUP latch, which it leaves alone, a delivery ends as a reply does. -/
theorem deliveryCompletesWithData : Obligations.DeliveryCompletesWithData := by
  intro s x c data rest more hf hm hq hi
  rw [step_of_answer hi, State.resume_of_head (s := { s with inputs := more }) hf hq]
  exact ⟨_, rfl, State.reply_replied (s := { s with
    dlvq := rest
    setup := none
    trace := s.trace ++ [.answered c (.response (some data))]
    inputs := more }) hm x data, rfl⟩

/-- Settles O24: FATAL discards every answer, a running block one that is not awaited. -/
theorem abandonedAnswersAreDiscarded : Obligations.AbandonedAnswersAreDiscarded := by
  intro s c a more hi h
  rw [step_of_answer hi]
  rcases h with hf | ⟨hq, hw⟩
  · obtain ⟨r, hr⟩ := Option.ne_none_iff_exists'.1 hf
    rw [State.resume_fatal (s := { s with inputs := more }) hr]
    rfl
  · rw [State.resume_of_unawaited (s := { s with inputs := more }) a hq hw]
    rfl

/-- Settles O20: a running block serves the arrival. -/
theorem deliveryIsQueuedAtTheTail : Obligations.DeliveryIsQueuedAtTheTail := by
  intro x b s hf
  rw [exec, execUrbDeliver, State.serve_running hf]

/-- Settles O23: at a timeout `deliverAnswer` only drops the head. -/
theorem deliveryTimesOutSilently : Obligations.DeliveryTimesOutSilently := by
  intro s x c rest more hf hq hi
  rw [step_of_answer hi, State.resume_of_head (s := { s with inputs := more }) hf hq]
  rfl

/-- Settles O25: the call of H, and the FINISH after the answer to it. -/
theorem intakeHandsOverThenFinishes : Obligations.IntakeHandsOverThenFinishes := by
  refine ⟨fun x b s hf => ?_, fun s x c more hf hw hi => ?_⟩
  · rw [exec, execUrbIntake, State.serve_running hf, State.callH]
  rw [step_of_agent_answer hf hw hi rfl (by simp), State.intakeReturned, State.finish, State.emit,
    State.takeAnswer_trace, List.append_assoc]
  rfl

/-- Settles O26: the call of H, and its answer, which alone decides whether entries leave. -/
theorem cancellationAsksThenRemoves : Obligations.CancellationAsksThenRemoves := by
  refine ⟨fun k id s hf => ⟨rfl, ?_⟩, fun s k c id b more hf hw hi => ?_⟩
  · rw [exec, execCancel, State.serve_running hf, State.callH]
  rw [step_of_agent_answer hf hw hi rfl (by simp)]
  cases b <;> simp [State.cancelAnswered, State.returnT, State.emit, State.takeAnswer]

/-- Settles O27: the two queries return, and the record has the values of R191. -/
theorem attachQueriesReturnTheRecord : Obligations.AttachQueriesReturnTheRecord := by
  refine ⟨fun k s hf => ⟨rfl, rfl, ?_, ?_⟩, fun p => rfl⟩
  · rw [exec, execBusId, State.serve_running hf]
    rfl
  · rw [exec, execDeviceSummary, State.serve_running hf]
    rfl

/-- No other INS has a row of its own (R111). -/
theorem decodeCommand_of_unknown_ins (k : Tag) {d : Apdu}
    (h : d.ins ∉ ([0x01, 0x02, 0x03] : Bytes)) :
    decodeCommand k d = .fatalUnknownIns k d.cla d.ins d.p1 d.p2 d.request d.le := by
  simp only [List.mem_cons, List.not_mem_nil, or_false, not_or] at h
  obtain ⟨hregister, hauthenticate, hversion⟩ := h
  simp only [decodeCommand, Config.insVersion, Config.insRegister, Config.insAuthenticate,
    hregister, hauthenticate, hversion, if_false]

/-- Settles O29: the endpoint by its own decoder, the INS by that of the APDUs; both rows raise. -/
theorem unknownEndpointAndUnknownInsAreFatal :
    Obligations.UnknownEndpointAndUnknownInsAreFatal := by
  refine ⟨fun x b e he => ?_, fun k cla ins p1 p2 req le h => decodeCommand_of_unknown_ins k h,
    fun s hf => ⟨fun x b e => serve_raiseFatal hf _, fun k cla ins p1 p2 req le =>
      serve_raiseFatal hf _⟩⟩
  obtain ⟨-, -, -, hfatal, -⟩ := endpointAloneSelectsTheUrbRow x b e
  exact hfatal (by simp only [List.mem_cons, List.not_mem_nil, or_false] at he; omega)

end Sys2Proof
end

section
/-! The statements of 43_apdu_framing.md: what each form of an APDU decodes to, which APDUs are
malformed, and the answer to one that is. -/

namespace Sys2Proof

open Machine

/-! ### The forms of an APDU (R211 to R214, R217) -/

/-- After the data, two bytes are Le, and nothing after them is read. -/
theorem decodeLe_u16be_append (le : BitVec 16) (tail : Bytes) :
    decodeLe (u16be le ++ tail) = .ok le := by
  rw [u16be, List.cons_append, List.cons_append, decodeLe, rd16be_u16be]

/-- Where anything follows the length, as many bytes as it says are the data. -/
theorem decodeData_append {data rest : Bytes} (hlen : data.length ≤ 65535)
    (hne : data ++ rest ≠ []) :
    decodeData (BitVec.ofNat 16 data.length) (data ++ rest) =
      (decodeLe rest).map fun le => (data, le) := by
  have hl1 : (BitVec.ofNat 16 data.length).toNat = data.length :=
    Nat.mod_eq_of_lt (Nat.lt_succ_of_le hlen)
  have hfits : ¬ (data ++ rest).length < data.length := by
    rw [List.length_append]
    omega
  unfold decodeData
  split
  · next h => exact absurd h hne
  · rw [hl1, if_neg hfits, List.drop_left, List.take_left]

theorem decodeBody_of_marker (hi lo : Byte) (rest : Bytes) :
    decodeBody (0x00 :: hi :: lo :: rest) = decodeData (rd16be hi lo) rest := rfl

theorem decodeBody_of_no_marker {marker : Byte} (h : marker ≠ 0x00) (rest : Bytes) :
    decodeBody (marker :: rest) = .error .noMarker := if_pos h

/-- Behind the header, the marker and the length stand the data and Le. -/
theorem decodeApdu_of_marker (cla ins p1 p2 : Byte) (l1 : BitVec 16) (rest : Bytes) :
    decodeApdu ([cla, ins, p1, p2, 0x00] ++ u16be l1 ++ rest) =
      (decodeData l1 rest).map fun r => ⟨cla, ins, p1, p2, r.1, r.2⟩ := by
  simp only [u16be, List.cons_append, List.nil_append, decodeApdu, decodeBody_of_marker,
    rd16be_u16be]

/-- Settles O7: but for the header alone, each form is the marker, a length and what
`decodeData` reads. -/
theorem apduBodyFormsDecode : Obligations.ApduBodyFormsDecode := by
  refine fun cla ins p1 p2 => ⟨rfl, fun le => ?_, fun data hpos hlen => ?_,
    fun data tail le hlen => ?_⟩
  · rw [← List.append_nil (_ ++ u16be le), decodeApdu_of_marker]
    rfl
  · have hne : data ++ [] ≠ [] := by simpa using List.ne_nil_of_length_pos hpos
    have hdata := decodeData_append hlen hne
    rw [List.append_nil] at hdata
    rw [decodeApdu_of_marker, hdata]
    rfl
  · have hne : data ++ (u16be le ++ tail) ≠ [] := by simp [u16be]
    rw [List.append_assoc, List.append_assoc, decodeApdu_of_marker, decodeData_append hlen hne,
      decodeLe_u16be_append]
    rfl

/-! ### The malformed APDUs (R215, R216) -/

/-- What is done with a result decides nothing about whether there is one. -/
theorem exists_map_eq_error_iff {ε α β : Type} (f : α → β) (r : Except ε α) :
    (∃ e, r.map f = .error e) ↔ ∃ e, r = .error e := by
  cases r <;> simp [Except.map]

theorem decodeLe_malformed_iff (rest : Bytes) :
    (∃ e, decodeLe rest = .error e) ↔ rest.length = 1 := by
  match rest with
  | [] | [_] | _ :: _ :: _ => simp [decodeLe]

theorem decodeData_malformed_iff (l1 : BitVec 16) (rest : Bytes) :
    (∃ e, decodeData l1 rest = .error e) ↔
      1 ≤ rest.length ∧ (rest.length < l1.toNat ∨ rest.length = l1.toNat + 1) := by
  unfold decodeData
  split
  · simp
  · next b bs =>
    have hpos : 1 ≤ (b :: bs).length := Nat.succ_pos _
    split_ifs with hcut
    · exact iff_of_true ⟨_, rfl⟩ ⟨hpos, .inl hcut⟩
    · rw [exists_map_eq_error_iff, decodeLe_malformed_iff, List.length_drop]
      omega

/-- The cuts of what follows the header, by its own offsets. -/
theorem decodeBody_malformed_iff (body : Bytes) :
    (∃ e, decodeBody body = .error e) ↔
      (1 ≤ body.length ∧ body.getD 0 0 ≠ 0x00) ∨
      (1 ≤ body.length ∧ body.length < 3) ∨
      (4 ≤ body.length ∧ body.length < 3 + (rd16be (body.getD 1 0) (body.getD 2 0)).toNat) ∨
      (4 ≤ body.length ∧ body.length = 4 + (rd16be (body.getD 1 0) (body.getD 2 0)).toNat) := by
  match body with
  | [] => simp [decodeBody]
  | marker :: rest =>
    by_cases hmarker : marker = 0x00
    · subst hmarker
      match rest with
      | [] | [_] => simp [decodeBody]
      | hi :: lo :: data =>
        rw [decodeBody_of_marker, decodeData_malformed_iff]
        simp only [List.length_cons, List.getD_cons_zero, List.getD_cons_succ, ne_eq,
          not_true_eq_false, and_false, false_or]
        omega
    · rw [decodeBody_of_no_marker hmarker]
      exact iff_of_true ⟨_, rfl⟩ (.inl ⟨Nat.succ_pos _, hmarker⟩)

/-- Settles O8: fewer than 4 bytes hold no header; otherwise the cuts are those of the body. -/
theorem malformedApdusExactly : Obligations.MalformedApdusExactly := by
  intro a
  match a with
  | [] | [_] | [_, _] | [_, _, _] => simp [decodeApdu]
  | cla :: ins :: p1 :: p2 :: body =>
    rw [decodeApdu, exists_map_eq_error_iff, decodeBody_malformed_iff]
    simp only [List.length_cons, List.getD_cons_succ]
    grind

/-! ### The answer to a malformed APDU (R219) -/

namespace Machine

/-- A running block refuses a call whose decoding fails, as soon as it has arrived. -/
theorem step_of_malformed {s : State} {c : Call} {e : DecodeError} {more : List Input}
    (hf : s.fatal = none) (hi : s.inputs = .call c :: more)
    (hd : decode (s.arriving c) = .error e) :
    step s =
      .next ((State.accept { s with inputs := more } c).respondError s.fresh .wrongData) := by
  have hd' : decode (State.arriving { s with inputs := more } c) = .error e := hd
  simp only [step, hi, stepInput, hd']
  exact State.serve_running (s := State.accept { s with inputs := more } c) hf _

end Machine

/-- Settles O30: the refusal is a response of status word 6A80, and an APDU brings no buffer
bytes. -/
theorem malformedApduResponds6A80 : Obligations.MalformedApduResponds6A80 := by
  intro s a e more hf hi he
  have hd : decode (s.arriving (.apdu a)) = .error e := by
    rw [State.arriving, Call.arrived, decode, he]
    rfl
  rw [step_of_malformed hf hi hd, State.respondError, State.respond, State.emit,
    State.accept_trace, List.append_assoc]
  rfl

end Sys2Proof
end

section
/-! The statements of 44_u2f_commands.md: what REGISTER and AUTHENTICATE do when their APDU arrives and at
each answer of port C, the common checks of AUTHENTICATE, and what the handles that suspended calls hold
are good for. -/

namespace Sys2Proof

open Machine

namespace Machine

/-! ### A call arrives (00_scope.md R6, R230) -/

/-- A call that decodes runs its instruction where it has arrived. -/
theorem step_of_call {s : State} {c : Call} {i : Instr} {more : List Input}
    (hi : s.inputs = .call c :: more) (hd : decode (s.arriving c) = .ok i) :
    step s = exec i (State.accept { s with inputs := more } c) := by
  have hd' : decode (State.arriving { s with inputs := more } c) = .ok i := hd
  simp only [step, hi, stepInput, hd']

/-- Only requests on endpoint 0 reply to a transfer. -/
theorem replyTo_of_encode_apdu {q : RequestCodes} {i : Instr} {k : Tag} {a : Bytes}
    (h : encode q i = .apdu k a) : i.replyTo = none := by
  cases i <;> cases h <;> rfl

/-- An APDU row is ignored by a fatal block; otherwise it records one event, raises a fatal error or
suspends one agent in a new call. -/
theorem exec_apdu_cases {q : RequestCodes} {i : Instr} {k : Tag} {a : Bytes} {s t : State}
    (hi : encode q i = .apdu k a) (h : exec i s = .next t) :
    t = s ∨ (∃ e, t = s.emit e) ∨ (s.fatal = none ∧ ∃ r, t = s.raiseFatal r) ∨
      ∃ g c, t = s.callC g c := by
  rcases exec_cases h with ⟨hf, h⟩ | ⟨-, h⟩
  · cases h with
    | reply x data hx h => rw [replyTo_of_encode_apdu hi] at hx; cases hx
    | fatal r h => exact .inr (.inr (.inl ⟨hf, r, h⟩))
    | deliver x b hx h => subst hx; cases hi
    | intake x b hx h => subst hx; cases hi
    | cancel k id hx h => subst hx; cases hi
    | returns k v h => exact .inr (.inl ⟨_, h⟩)
    | u2f k h =>
      cases h with
      | responds data w hw h => exact .inr (.inl ⟨_, h⟩)
      | fatal r h => exact .inr (.inr (.inl ⟨hf, r, h⟩))
      | calls d w c h => exact .inr (.inr (.inr ⟨_, c, h⟩))
  · exact .inl h

end Machine

/-- Settles O44: the state written out is that in which the call has been accepted. -/
theorem stepRunsTheDecodedInstruction : Obligations.StepRunsTheDecodedInstruction :=
  fun _ _ _ _ hi hd => step_of_call hi hd

/-- Settles O43, in each of the ways an APDU row can go. -/
theorem apduRowsLeaveTheRestAlone : Obligations.ApduRowsLeaveTheRestAlone := by
  intro q i k a s t hi h
  rcases exec_apdu_cases hi h with rfl | ⟨e, rfl⟩ | ⟨hf, r, rfl⟩ | ⟨g, c, rfl⟩
  · exact ⟨rfl, rfl, fun _ => rfl, rfl, rfl, rfl, rfl, .inl ⟨rfl, rfl, .inl rfl⟩⟩
  · exact ⟨rfl, rfl, fun _ => rfl, rfl, rfl, rfl, rfl, .inl ⟨rfl, rfl, .inl rfl⟩⟩
  · exact ⟨rfl, rfl, fun _ => rfl, rfl, rfl, rfl, rfl, .inr ⟨hf, by simp, rfl, rfl⟩⟩
  · exact ⟨rfl, rfl, fun _ => rfl, rfl, rfl, rfl, rfl, .inl ⟨rfl, rfl, .inr ⟨_, rfl, rfl⟩⟩⟩

/-- Settles O28: INS is compared with that of VERSION first, and a running block serves the row. -/
theorem versionResponds : Obligations.VersionResponds :=
  ⟨fun _ _ _ _ _ _ => rfl, fun k _ _ _ _ _ _ hf =>
    State.serve_running hf fun t => t.respond k versionResponse⟩

namespace Machine

/-! ### The request data of REGISTER and AUTHENTICATE (30_encoding.md R113, R114; R240) -/

theorem parseRegister_of_length_ne {req : Bytes} (h : req.length ≠ 64) :
    parseRegister req = none := if_neg h

/-- The application is all that follows the challenge. -/
theorem parseRegister_of_length {req : Bytes} (h : req.length = 64) :
    parseRegister req = some ⟨req.take 32, req.drop 32⟩ := by
  have hrest : (req.drop 32).take 32 = req.drop 32 := List.take_of_length_le (by simp [h])
  exact (if_pos h).trans (by rw [challengeOf, Config.challengeLen, Config.applicationLen, hrest])

theorem parseAuthenticate_eq_some_iff {req handle : Bytes} {ch : Challenge} :
    parseAuthenticate req = some (ch, handle) ↔
      65 + (req.getD 64 0).toNat ≤ req.length ∧ ch = ⟨req.take 32, (req.drop 32).take 32⟩ ∧
        handle = (req.drop 65).take (req.getD 64 0).toNat := by
  have hlen : handleLenOf req = (req.getD 64 0).toNat := rfl
  rw [parseAuthenticate, hlen]
  split_ifs with hshort hcut
  · exact iff_of_false (by simp) (fun h => by omega)
  · exact iff_of_false (by simp) (fun h => by omega)
  · rw [Option.some_inj, Prod.mk.injEq]
    exact ⟨fun ⟨hch, hhandle⟩ => ⟨by omega, hch.symm, hhandle.symm⟩,
      fun ⟨_, hch, hhandle⟩ => ⟨hch.symm, hhandle.symm⟩⟩

/-- Only a handle that is not empty opens (log 23). -/
theorem openHandle_eq_some_iff {U : Units} {sk handle : Bytes} {kh : KeyHandle} :
    openHandle U sk handle = some kh ↔ handle ≠ [] ∧ U.openBox sk handle = some kh := by
  cases handle <;> simp [openHandle]

theorem openAssertion_eq_some_iff {U : Units} {sk req : Bytes} {ch : Challenge} {kh : KeyHandle} :
    openAssertion U sk req = some (ch, kh) ↔
      ∃ handle, parseAuthenticate req = some (ch, handle) ∧
        openHandle U sk handle = some kh ∧ kh.applicationId = ch.application := by
  constructor
  · intro h
    unfold openAssertion at h
    split at h
    · cases h
    · next c handle hp =>
      split at h
      · cases h
      · next kh' ho =>
        split_ifs at h with happ
        cases h
        exact ⟨handle, hp, ho, happ⟩
  · rintro ⟨handle, hp, ho, happ⟩
    simp only [openAssertion, hp, ho, if_pos happ]

end Machine

/-- Settles O36: the conditions of the parser, of OPEN and of the application, of which only the second
asks for a handle that is not empty. -/
theorem assertionOpensExactly : Obligations.AssertionOpensExactly := by
  intro U sk req ch kh
  simp only [openAssertion_eq_some_iff, parseAuthenticate_eq_some_iff, openHandle_eq_some_iff]
  constructor
  · rintro ⟨_, ⟨hlen, rfl, rfl⟩, ⟨hne, hopen⟩, happ⟩
    exact ⟨hlen, by omega, fun h0 => hne (by rw [h0]; rfl), hopen, rfl, happ⟩
  · rintro ⟨hlen, -, h0, hopen, rfl, happ⟩
    refine ⟨_, ⟨hlen, rfl, rfl⟩, ⟨?_, hopen⟩, happ⟩
    have hpos : 0 < (req.getD 64 0).toNat :=
      Nat.pos_of_ne_zero fun h => h0 (BitVec.eq_of_toNat_eq (y := 0) h)
    apply List.ne_nil_of_length_pos
    rw [List.length_take, List.length_drop]
    omega

/-- Settles O31: a running block serves the row, which latches what the parser gives. -/
theorem registerChecksLengthThenAsksForAKey :
    Obligations.RegisterChecksLengthThenAsksForAKey := by
  intro k cla p1 p2 req le s hf
  rw [exec, execU2fRegister, State.serve_running hf]
  refine ⟨fun hlen => ?_, fun hlen => ?_⟩
  · rw [parseRegister_of_length_ne hlen]
    rfl
  · rw [parseRegister_of_length hlen]
    rfl

namespace Machine

/-! ### A suspended U2F call takes its answer (R237, R242, R245) -/

section
variable {U : Units} {s : State} {c k : Tag} {d : Apdu}

theorem Agent.resume_u2f (w : U2fWait) (a : Answer) :
    Agent.resume U (.u2f k d w) a = resumeU2f U k d w a := by
  cases a <;> rfl

/-- The call runs on from the state in which its answer has been taken. -/
theorem State.resume_of_u2f {w : U2fWait} {a : Answer} {run : State → State} (hf : s.fatal = none)
    (hw : s.waitingFor c = some (.u2f k d w)) (hr : resumeU2f U k d w a = some run) :
    s.resume U c a = run (s.takeAnswer c a) := by
  have ha : ∀ r, a ≠ .response r := by
    rintro r rfl
    cases w <;> cases hr
  rw [State.resume_eq_resumeAgent hf ha,
    State.resumeAgent_of_waiting hw ((Agent.resume_u2f w a).trans hr)]

/-- A draw may be counted before the answer or after it. -/
theorem State.takeAnswer_drawn (a : Answer) :
    (s.takeAnswer c a).drawn = s.drawn.takeAnswer c a := rfl

/-! The three endings of `U2fEnds`, written out from the state before the answer. -/

variable (s c k)

theorem State.takeAnswer_raiseFatal (a : Answer) (r : FatalReason) :
    (s.takeAnswer c a).raiseFatal r = { s with
      fatal := some r
      setup := none
      agents := (s.agents.filter (fun w => w.call ≠ c)).filter (fun w => !w.isU2f)
      trace := s.trace ++ [.answered c a, .fatal r] } := by
  rw [State.raiseFatal, State.takeAnswer_trace, List.append_assoc]
  rfl

theorem State.takeAnswer_respond (a : Answer) (bytes : Bytes) :
    (s.takeAnswer c a).respond k bytes = { s with
      agents := s.agents.filter (fun w => w.call ≠ c)
      trace := s.trace ++ [.answered c a, .respond k bytes] } := by
  rw [State.respond, State.emit, State.takeAnswer_trace, List.append_assoc]
  rfl

theorem State.takeAnswer_callC (a : Answer) (g : Agent) (call : CCall) :
    (s.takeAnswer c a).callC g call = { s with
      agents := s.agents.filter (fun w => w.call ≠ c) ++ [⟨s.fresh, g⟩]
      fresh := s.fresh + 1
      trace := s.trace ++ [.answered c a, .callC s.fresh call] } := by
  rw [State.callC, State.takeAnswer_trace, List.append_assoc]
  rfl

end

/-! ### What each answer leads to, case by case -/

section
variable {U : Units} {k : Tag} {d : Apdu} {ch : Challenge} {kp : KeyPair} {kh : KeyHandle}
  {handle cert : Bytes} {ctr : BitVec 32} {s : State}

theorem registerWithKey_of_refused
    (h : U.sealBox s.sk (keyHandleFor U kp ch) (Config.draw s.draws) = none) :
    registerWithKey U k d ch (some kp) s = s.drawn.raiseFatal .cryptoInvalidKey := by
  simp only [registerWithKey, h]

theorem registerWithKey_of_sealed
    (h : U.sealBox s.sk (keyHandleFor U kp ch) (Config.draw s.draws) = some handle) :
    registerWithKey U k d ch (some kp) s =
      s.drawn.callC (.u2f k d (.approveRegistration ch kp (keyHandleFor U kp ch) handle))
        (.approveRegistration (keyHandleFor U kp ch)) := by
  simp only [registerWithKey, h]

theorem registerWithCertificate_of_unsigned
    (h : U.sign (U.priv kp) (registerMessage U ch kp handle) (Config.draw s.draws) = none) :
    registerWithCertificate U k ch kp handle (some cert) s =
      s.drawn.raiseFatal .cryptoInvalidKey := by
  simp only [registerWithCertificate, h]

theorem registerWithCertificate_of_signed {sig : Bytes}
    (h : U.sign (U.priv kp) (registerMessage U ch kp handle) (Config.draw s.draws) = some sig) :
    registerWithCertificate U k ch kp handle (some cert) s =
      if 255 < handle.length then s.drawn.raiseFatal .handleTooLong
      else s.drawn.respond k (registerResponse U kp handle cert sig) := by
  simp only [registerWithCertificate, h]
  rfl

theorem assertionWithCounter_of_undecoded (h : U.privDec kh.privateKey = none) :
    assertionWithCounter U k ch kh ctr s = s.raiseFatal .cryptoInvalidKey := by
  simp only [assertionWithCounter, h]

theorem assertionWithCounter_of_unsigned {priv : PrivKey}
    (hp : U.privDec kh.privateKey = some priv)
    (h : U.sign priv (assertionMessage ch ctr) (Config.draw s.draws) = none) :
    assertionWithCounter U k ch kh ctr s = s.drawn.raiseFatal .cryptoInvalidKey := by
  simp only [assertionWithCounter, hp, h]

theorem assertionWithCounter_of_signed {priv : PrivKey} {sig : Bytes}
    (hp : U.privDec kh.privateKey = some priv)
    (h : U.sign priv (assertionMessage ch ctr) (Config.draw s.draws) = some sig) :
    assertionWithCounter U k ch kh ctr s = s.drawn.respond k (assertionResponse ctr sig) := by
  simp only [assertionWithCounter, hp, h]

end

end Machine

/-- Settles O32: the three endings of `registerWithKey`. -/
theorem registerSealsThenAsksForApproval : Obligations.RegisterSealsThenAsksForApproval := by
  intro U s c k d ch okp hf hw
  rw [State.resume_of_u2f hf hw rfl]
  cases okp with
  | none => exact s.takeAnswer_raiseFatal c _ _
  | some kp =>
    dsimp only
    cases hseal : U.sealBox s.sk ⟨U.privEnc kp, ch.application⟩ (Config.draw s.draws) with
    | none =>
      exact (registerWithKey_of_refused (s := s.takeAnswer c _) hseal).trans
        (s.drawn.takeAnswer_raiseFatal c _ _)
    | some handle =>
      exact (registerWithKey_of_sealed (s := s.takeAnswer c _) hseal).trans
        (s.drawn.takeAnswer_callC c _ _ _)

/-- Settles O33: a denial ends the call, an approval suspends it again. -/
theorem registerDeniedOrCertified : Obligations.RegisterDeniedOrCertified := by
  intro U s c k d ch kp kh handle ok hf hw
  rw [State.resume_of_u2f hf hw rfl]
  cases ok with
  | false => exact s.takeAnswer_respond c k _ _
  | true => exact s.takeAnswer_callC c _ _ _

/-- Settles O34: certificate, signature, length, in the order of `registerWithCertificate`. -/
theorem registerSignsAndResponds : Obligations.RegisterSignsAndResponds := by
  intro U s c k d ch kp handle oc hf hw
  rw [State.resume_of_u2f hf hw rfl]
  cases oc with
  | none => exact s.takeAnswer_raiseFatal c _ _
  | some cert =>
    dsimp only
    cases hsign : U.sign (U.priv kp)
        ([0x00] ++ ch.application ++ ch.challenge ++ handle ++ publicKey U kp)
        (Config.draw s.draws) with
    | none =>
      exact (registerWithCertificate_of_unsigned (s := s.takeAnswer c _) hsign).trans
        (s.drawn.takeAnswer_raiseFatal c _ _)
    | some sig =>
      refine (registerWithCertificate_of_signed (s := s.takeAnswer c _) hsign).trans ?_
      dsimp only
      split_ifs
      · exact s.drawn.takeAnswer_raiseFatal c _ _
      · exact s.drawn.takeAnswer_respond c k _ _

/-- Settles O38: a denial ends the call before any counter is asked for. -/
theorem enforceDeniedOrCounted : Obligations.EnforceDeniedOrCounted := by
  intro U s c k d ch kh ok hf hw
  rw [State.resume_of_u2f hf hw rfl]
  cases ok with
  | false => exact s.takeAnswer_respond c k _ _
  | true => exact s.takeAnswer_callC c _ _ _

/-- Settles O39: the three endings of `assertionWithCounter`. -/
theorem assertionSignsTheCounterVerbatim : Obligations.AssertionSignsTheCounterVerbatim := by
  intro U s c k d ch kh ctr hf hw
  rw [State.resume_of_u2f hf hw rfl]
  cases hpriv : U.privDec kh.privateKey with
  | none =>
    exact (assertionWithCounter_of_undecoded hpriv).trans (s.takeAnswer_raiseFatal c _ _)
  | some priv =>
    dsimp only
    cases hsign : U.sign priv (ch.application ++ [0x01] ++ be32 ctr ++ ch.challenge)
        (Config.draw s.draws) with
    | none =>
      exact (assertionWithCounter_of_unsigned (s := s.takeAnswer c _) hpriv hsign).trans
        (s.drawn.takeAnswer_raiseFatal c _ _)
    | some sig =>
      exact (assertionWithCounter_of_signed (s := s.takeAnswer c _) hpriv hsign).trans
        (s.drawn.takeAnswer_respond c k _ _)

/-! ### What a registered handle is good for (R231 to R233) -/

namespace Machine

section
variable {U : Units} (hU : U.Lawful)
include hU

/-- What REGISTER seals opens again, and so is not empty. -/
theorem openHandle_of_sealed {sk n handle : Bytes} {kh : KeyHandle}
    (hkey : kh.privateKey.length ≤ 200) (happ : kh.applicationId.length = 32)
    (h : U.sealBox sk kh n = some handle) : openHandle U sk handle = some kh := by
  have hopen := hU.openBox_sealBox sk kh n handle hkey happ h
  refine openHandle_eq_some_iff.2 ⟨?_, hopen⟩
  rintro rfl
  rw [hU.openBox_empty] at hopen
  cases hopen

end

/-- Challenge and application of 32 bytes, the handle behind its length, and anything after it. -/
theorem parseAuthenticate_append {challenge application handle : Bytes} (tail : Bytes)
    (hc : challenge.length = 32) (ha : application.length = 32) (hh : handle.length ≤ 255) :
    parseAuthenticate
        (challenge ++ application ++ [BitVec.ofNat 8 handle.length] ++ handle ++ tail) =
      some (⟨challenge, application⟩, handle) := by
  generalize hreq :
    challenge ++ application ++ [BitVec.ofNat 8 handle.length] ++ handle ++ tail = req
  simp only [List.append_assoc] at hreq
  have h0 : req.drop 0 = _ := hreq.symm
  have h32 : req.drop 32 = _ := hc ▸ drop_field h0
  have h64 : req.drop 64 = _ := ha ▸ drop_field h32
  have h65 : req.drop 65 = _ := drop_field h64
  have hlen : (req.getD 64 0).toNat = handle.length := by
    rw [getD_of_drop_eq_cons h64, BitVec.toNat_ofNat]
    omega
  have hc' := take_field h0
  have ha' := take_field h32
  rw [hc, List.drop_zero] at hc'
  rw [ha] at ha'
  refine parseAuthenticate_eq_some_iff.2 ⟨?_, by rw [hc', ha'], ?_⟩
  · rw [hlen, ← hreq]
    simp only [List.length_append, List.length_cons, List.length_nil]
    omega
  · rw [hlen, take_field h65]

end Machine

/-- Settles O40: the request parses to the handle, which opens to its record; R231 decodes the key. -/
theorem registeredHandleAuthenticates : Obligations.RegisteredHandleAuthenticates := by
  intro U sk challenge handle tail n kp ch hU hkey happ hc hh hseal
  refine ⟨openAssertion_eq_some_iff.2 ⟨handle, parseAuthenticate_append tail hc happ hh,
    openHandle_of_sealed hU hkey happ hseal, rfl⟩, hU.privDec_privEnc kp⟩

/-- Settles O41: the registered key decodes to the keypair's own (R231), so what is signed verifies
(R233). -/
theorem assertionVerifiesUnderTheRegisteredKey :
    Obligations.AssertionVerifiesUnderTheRegisteredKey := by
  intro U verify s c k d ch issued kp ctr hU hverify hf hw
  have hpriv : U.privDec (keyHandleFor U kp issued).privateKey = some (U.priv kp) :=
    hU.privDec_privEnc kp
  rw [State.resume_of_u2f hf hw rfl]
  cases hsign : U.sign (U.priv kp) (assertionMessage ch ctr) (Config.draw s.draws) with
  | none =>
    rw [assertionWithCounter_of_unsigned (s := s.takeAnswer c _) hpriv hsign]
    exact .inl rfl
  | some sig =>
    rw [assertionWithCounter_of_signed (s := s.takeAnswer c _) hpriv hsign, State.takeAnswer_drawn,
      State.takeAnswer_respond]
    exact .inr ⟨sig, hf, rfl, hverify kp _ _ sig hsign⟩

namespace Machine

/-! ### The handles of suspended REGISTERs (R237 steps 4 to 7) -/

/-- The handle that the agent carries, if any, is a sealing of its own key and application. -/
def Agent.Sealed (U : Units) (g : Agent) : Prop :=
  match g with
  | .u2f _ _ (.approveRegistration c kp kh handle) =>
      kh = keyHandleFor U kp c ∧ ∃ sk n, U.sealBox sk kh n = some handle
  | .u2f _ _ (.createCertificate c kp handle) =>
      ∃ sk n, U.sealBox sk (keyHandleFor U kp c) n = some handle
  | _ => True

theorem handlesSealed_iff {U : Units} {s : State} :
    HandlesSealed U s ↔ ∀ w ∈ s.agents, w.agent.Sealed U := Iff.rfl

/-- An answer leaves FATAL and every agent alone, or the agent that waits for it takes it and runs on. -/
theorem State.resume_runs_agent (U : Units) (s : State) (c : Tag) (a : Answer) :
    (s.resume U c a).fatal = s.fatal ∧ (s.resume U c a).agents = s.agents ∨
      ∃ g run, s.waitingFor c = some g ∧ g.resume U a = some run ∧
        s.resume U c a = run (s.takeAnswer c a) := by
  have hagent : (s.resumeAgent U c a).fatal = s.fatal ∧ (s.resumeAgent U c a).agents = s.agents ∨
      ∃ g run, s.waitingFor c = some g ∧ g.resume U a = some run ∧
        s.resumeAgent U c a = run (s.takeAnswer c a) := by
    unfold State.resumeAgent
    cases hw : s.waitingFor c with
    | none => exact .inl ⟨rfl, rfl⟩
    | some g =>
      dsimp only
      cases hr : g.resume U a with
      | none => exact .inl ⟨rfl, rfl⟩
      | some run => exact .inr ⟨g, run, rfl, hr, rfl⟩
  unfold State.resume
  split
  · exact .inl ⟨rfl, rfl⟩
  · split
    · next x c' rest r hq =>
      split_ifs
      · cases r <;> exact .inl ⟨rfl, rfl⟩
      · exact hagent
    · exact hagent

section
variable {U : Units} {s : State} (hs : HandlesSealed U s)
include hs

theorem HandlesSealed.of_agents_subset {t : State} (h : t.agents ⊆ s.agents) :
    HandlesSealed U t :=
  fun w hw => hs w (h hw)

theorem HandlesSealed.takeAnswer (c : Tag) (a : Answer) : HandlesSealed U (s.takeAnswer c a) :=
  hs.of_agents_subset List.filter_sublist.subset

theorem HandlesSealed.raiseFatal (r : FatalReason) : HandlesSealed U (s.raiseFatal r) :=
  hs.of_agents_subset List.filter_sublist.subset

/-- An agent is suspended in a new call, whatever port it calls. -/
theorem HandlesSealed.suspend {t : State} {g : Agent} (hg : g.Sealed U)
    (ht : t.agents = s.agents ++ [⟨s.fresh, g⟩] := by rfl) : HandlesSealed U t := by
  refine handlesSealed_iff.2 fun w hw => ?_
  rcases List.mem_append.1 (ht ▸ hw) with hw | hw
  · exact handlesSealed_iff.1 hs w hw
  · rw [List.mem_singleton.1 hw]
    exact hg

theorem HandlesSealed.of_waitingFor {c : Tag} {g : Agent} (hw : s.waitingFor c = some g) :
    g.Sealed U := by
  obtain ⟨w, hfind, rfl⟩ := Option.map_eq_some_iff.1 hw
  exact handlesSealed_iff.1 hs w (List.mem_of_find?_eq_some hfind)

/-! ### Along an answer -/

/-- REGISTER step 5 seals the handle that the next agent carries. -/
theorem HandlesSealed.registerWithKey (k : Tag) (d : Apdu) (ch : Challenge)
    (okp : Option KeyPair) : HandlesSealed U (registerWithKey U k d ch okp s) := by
  cases okp with
  | none => exact hs.raiseFatal .keyParse
  | some kp =>
    cases hseal : U.sealBox s.sk (keyHandleFor U kp ch) (Config.draw s.draws) with
    | none =>
      rw [registerWithKey_of_refused hseal]
      exact hs.raiseFatal .cryptoInvalidKey
    | some handle =>
      rw [registerWithKey_of_sealed hseal]
      exact hs.suspend (g := .u2f k d (.approveRegistration ..)) ⟨rfl, _, _, hseal⟩

/-- An approval passes the sealing on. -/
theorem HandlesSealed.registerApproved {k : Tag} {d : Apdu} {ch : Challenge} {kp : KeyPair}
    {kh : KeyHandle} {handle : Bytes} (ok : Bool)
    (hg : Agent.Sealed U (.u2f k d (.approveRegistration ch kp kh handle))) :
    HandlesSealed U (registerApproved k d ch kp handle ok s) := by
  obtain ⟨rfl, hseal⟩ := hg
  cases ok with
  | false => exact hs
  | true => exact hs.suspend (g := .u2f k d (.createCertificate ..)) hseal

/-- No agent follows the certificate. -/
theorem HandlesSealed.registerWithCertificate (k : Tag) (ch : Challenge) (kp : KeyPair)
    (handle : Bytes) (oc : Option Bytes) :
    HandlesSealed U (registerWithCertificate U k ch kp handle oc s) := by
  cases oc with
  | none => exact hs.raiseFatal .cryptoInvalidKey
  | some cert =>
    cases hsign : U.sign (U.priv kp) (registerMessage U ch kp handle) (Config.draw s.draws) with
    | none =>
      rw [registerWithCertificate_of_unsigned hsign]
      exact hs.raiseFatal .cryptoInvalidKey
    | some sig =>
      rw [registerWithCertificate_of_signed hsign]
      split_ifs
      · exact hs.raiseFatal .handleTooLong
      · exact hs

theorem HandlesSealed.signAssertion (k : Tag) (d : Apdu) (ch : Challenge) (kh : KeyHandle) :
    HandlesSealed U (signAssertion k d ch kh s) :=
  hs.suspend (g := .u2f k d (.nextCounter ch kh)) trivial

theorem HandlesSealed.authenticationAnswered (k : Tag) (d : Apdu) (ch : Challenge)
    (kh : KeyHandle) (ok : Bool) :
    HandlesSealed U (authenticationAnswered k d ch kh ok s) := by
  cases ok with
  | false => exact hs
  | true => exact hs.signAssertion k d ch kh

/-- No agent follows the counter. -/
theorem HandlesSealed.assertionWithCounter (k : Tag) (ch : Challenge) (kh : KeyHandle)
    (ctr : BitVec 32) : HandlesSealed U (assertionWithCounter U k ch kh ctr s) := by
  cases hpriv : U.privDec kh.privateKey with
  | none =>
    rw [assertionWithCounter_of_undecoded hpriv]
    exact hs.raiseFatal .cryptoInvalidKey
  | some priv =>
    cases hsign : U.sign priv (assertionMessage ch ctr) (Config.draw s.draws) with
    | none =>
      rw [assertionWithCounter_of_unsigned hpriv hsign]
      exact hs.raiseFatal .cryptoInvalidKey
    | some sig =>
      rw [assertionWithCounter_of_signed hpriv hsign]
      exact hs

theorem HandlesSealed.cancelAnswered (k : Tag) (id : UrbId) (b : Bool) :
    HandlesSealed U (s.cancelAnswered k id b) := by
  cases b <;> exact hs

/-- Whatever agent runs on, provided what it carried was sealed. -/
theorem HandlesSealed.run {g : Agent} {a : Answer} {run : State → State} (hg : g.Sealed U)
    (hr : g.resume U a = some run) : HandlesSealed U (run s) := by
  cases g with
  | intake x => cases a <;> cases hr; exact hs
  | cancelling k id => cases a <;> cases hr; exact hs.cancelAnswered k id _
  | u2f k d w =>
    rw [Agent.resume_u2f] at hr
    unfold resumeU2f at hr
    split at hr <;> cases hr
    · exact hs.registerWithKey k d _ _
    · exact hs.registerApproved _ hg
    · exact hs.registerWithCertificate k _ _ _ _
    · exact hs.authenticationAnswered k d _ _ _
    · exact hs.assertionWithCounter k _ _ _

theorem HandlesSealed.resume (c : Tag) (a : Answer) : HandlesSealed U (s.resume U c a) := by
  rcases s.resume_runs_agent U c a with ⟨-, hagents⟩ | ⟨g, run, hw, hr, h⟩
  · exact hs.of_agents_subset fun _ hw => hagents ▸ hw
  · exact h ▸ (hs.takeAnswer c a).run (hs.of_waitingFor hw) hr

/-! ### Along an instruction -/

theorem HandlesSealed.serve {f : State → State} {t : State} (h : s.serve f = .next t)
    (hf : HandlesSealed U (f s)) : HandlesSealed U t := by
  rcases State.serve_cases h with ⟨-, rfl⟩ | ⟨-, rfl⟩
  · exact hf
  · exact hs

theorem HandlesSealed.conclude (x : Xfer) (outcome : Except FatalReason Bytes) :
    HandlesSealed U (s.conclude x outcome) := by
  cases outcome with
  | ok data => exact hs
  | error r => exact hs.raiseFatal r

theorem HandlesSealed.authenticate {V : Units} {k : Tag} {req : Bytes}
    {branch : Challenge → KeyHandle → State → State}
    (hbranch : ∀ ch kh, HandlesSealed U (branch ch kh s)) :
    HandlesSealed U (authenticate V k req branch s) := by
  cases h : openAssertion V s.sk req with
  | none =>
    rw [authenticate_of_none h]
    exact hs
  | some p =>
    rw [authenticate_of_some h]
    exact hbranch p.1 p.2

/-- The first port-C call of an APDU row comes before any sealing. -/
theorem HandlesSealed.exec {i : Instr} {t : State} (h : exec i s = .next t) :
    HandlesSealed U t := by
  cases i <;> dsimp only [Machine.exec] at h
  case getDescriptorDevice | getDescriptorConfiguration | setConfiguration | getStatus | setIdle |
      setProtocol | getDescriptorHidReport | urbDeliver | busId | deviceSummary | u2fVersion =>
    exact hs.serve h hs
  case fatalDeviceGetDescriptorType | fatalDeviceUnknownRequest | fatalInterfaceGetDescriptorType |
      fatalInterfaceUnknownRequest | fatalUnknownRecipient | fatalUnknownEndpoint |
      fatalUnknownIns =>
    exact hs.serve h (hs.raiseFatal _)
  case getDescriptorString x a index =>
    refine hs.serve h ?_
    split_ifs
    · exact hs
    · exact hs.raiseFatal _
  case urbControl x b =>
    exact hs.serve ((exec_urbControl x b s).symm.trans h) (hs.conclude x _)
  case urbIntake x b => exact hs.serve h (hs.suspend (g := .intake x) trivial)
  case cancel k id => exact hs.serve h (hs.suspend (g := .cancelling k id) trivial)
  case u2fRegister k cla p1 p2 req le =>
    refine hs.serve h ?_
    split
    · exact hs
    · exact hs.suspend (g := .u2f k _ (.newKey _)) trivial
  case u2fAuthenticateCheckOnly | u2fAuthenticateOtherP1 =>
    exact hs.serve h (hs.authenticate fun _ _ => hs)
  case u2fAuthenticateEnforce k cla p2 req le =>
    exact hs.serve h (hs.authenticate fun ch kh =>
      hs.suspend (g := .u2f k _ (.approveAuthentication ch kh)) trivial)
  case u2fAuthenticateSign k cla p2 req le =>
    exact hs.serve h (hs.authenticate fun ch kh => hs.signAssertion k _ ch kh)

end

/-! ### Along a step -/

theorem State.acquire_agents (s : State) : s.acquire.agents = s.agents := by
  rcases s.acquire_cases with h | ⟨x, rest, -, -, -, h⟩ <;> rw [h]

/-- A call arrives, and the schedule moves on, without any agent's doing. -/
theorem HandlesSealed.step {s t : State} (hs : HandlesSealed Config.units s)
    (h : step s = .next t) : HandlesSealed Config.units t := by
  cases step_cases h with
  | idle _ h => exact h ▸ hs
  | instr c rest i _ _ h =>
    have ha : HandlesSealed Config.units (State.accept { s with inputs := rest } c) := hs
    exact ha.exec h
  | malformed c rest e _ _ h =>
    have ha : HandlesSealed Config.units (State.accept { s with inputs := rest } c) := hs
    exact ha.serve h ha
  | acquire rest _ h =>
    exact h ▸ hs.of_agents_subset fun _ hw => State.acquire_agents { s with inputs := rest } ▸ hw
  | answer c a rest _ h => exact h ▸ HandlesSealed.resume (s := { s with inputs := rest }) hs c a
  | reset key rest _ h => exact h ▸ handlesSealed_of_no_agents rfl

/-! ### HANDLE_TOO_LONG (R239; 70_reset_and_hazards.md R315) -/

section
variable {U : Units} {s : State}

theorem registerWithKey_fatal_ne (k : Tag) (d : Apdu) (ch : Challenge) (okp : Option KeyPair)
    (hf : s.fatal ≠ some .handleTooLong) :
    (registerWithKey U k d ch okp s).fatal ≠ some .handleTooLong := by
  cases okp with
  | none => simp [registerWithKey]
  | some kp =>
    cases hseal : U.sealBox s.sk (keyHandleFor U kp ch) (Config.draw s.draws) with
    | none => simp [registerWithKey_of_refused hseal]
    | some handle =>
      rw [registerWithKey_of_sealed hseal]
      exact hf

/-- A handle that fits its length byte is responded, not refused. -/
theorem registerWithCertificate_fatal_ne (k : Tag) (ch : Challenge) (kp : KeyPair)
    {handle : Bytes} (oc : Option Bytes) (hlen : handle.length ≤ 255)
    (hf : s.fatal ≠ some .handleTooLong) :
    (registerWithCertificate U k ch kp handle oc s).fatal ≠ some .handleTooLong := by
  cases oc with
  | none => simp [registerWithCertificate]
  | some cert =>
    cases hsign : U.sign (U.priv kp) (registerMessage U ch kp handle) (Config.draw s.draws) with
    | none => simp [registerWithCertificate_of_unsigned hsign]
    | some sig =>
      rw [registerWithCertificate_of_signed hsign, if_neg (Nat.not_lt.2 hlen)]
      exact hf

theorem assertionWithCounter_fatal_ne (k : Tag) (ch : Challenge) (kh : KeyHandle)
    (ctr : BitVec 32) (hf : s.fatal ≠ some .handleTooLong) :
    (assertionWithCounter U k ch kh ctr s).fatal ≠ some .handleTooLong := by
  cases hpriv : U.privDec kh.privateKey with
  | none => simp [assertionWithCounter_of_undecoded hpriv]
  | some priv =>
    cases hsign : U.sign priv (assertionMessage ch ctr) (Config.draw s.draws) with
    | none => simp [assertionWithCounter_of_unsigned hpriv hsign]
    | some sig =>
      rw [assertionWithCounter_of_signed hpriv hsign]
      exact hf

/-- Only the certificate's answer checks the length, and that of a sealing. -/
theorem Agent.run_fatal_ne {g : Agent} {a : Answer} {run : State → State} (hU : ConformantSeal U)
    (hg : g.Sealed U) (hr : g.resume U a = some run) (hf : s.fatal ≠ some .handleTooLong) :
    (run s).fatal ≠ some .handleTooLong := by
  cases g with
  | intake x => cases a <;> cases hr; exact hf
  | cancelling k id =>
    cases a with
    | removed b => cases hr; cases b <;> exact hf
    | _ => cases hr
  | u2f k d w =>
    rw [Agent.resume_u2f] at hr
    unfold resumeU2f at hr
    split at hr <;> cases hr
    · exact registerWithKey_fatal_ne k d _ _ hf
    · next ok => cases ok <;> exact hf
    · obtain ⟨sk, n, hseal⟩ := hg
      exact registerWithCertificate_fatal_ne k _ _ _ (hU sk _ n _ hseal) hf
    · next ok => cases ok <;> exact hf
    · exact assertionWithCounter_fatal_ne k _ _ _ hf

end

end Machine

/-- Settles O54, along the ways a step can go. -/
theorem everyStepKeepsHandlesSealed : Obligations.EveryStepKeepsHandlesSealed :=
  fun _ _ hs h => hs.step h

/-- Settles O42: the answer leaves FATAL alone, or it reaches an agent whose handle is a sealing. -/
theorem conformantSealNeverRaisesHandleTooLong :
    Obligations.ConformantSealNeverRaisesHandleTooLong := by
  intro U s c a hU hs hf
  rcases s.resume_runs_agent U c a with ⟨hfatal, -⟩ | ⟨g, run, hw, hr, h⟩
  · rw [hfatal]
    exact hf
  · rw [h]
    exact Agent.run_fatal_ne (s := s.takeAnswer c a) hU (hs.of_waitingFor hw) hr hf

end Sys2Proof
end

section
/-! The statements of 60_exceptions.md: the codes of the fatal reasons, the step at an answer, and what is
left for a step to do while FATAL holds. -/

namespace Sys2Proof

open Machine

/-- Settles O60: each reason evaluates to its code. -/
theorem fatalReasonCodes : Obligations.FatalReasonCodes := rfl

/-- Settles O45. -/
theorem answersReachTheirAgentThroughStep : Obligations.AnswersReachTheirAgentThroughStep :=
  fun _ _ _ _ hi => step_of_answer hi

namespace Machine

/-! ### While FATAL holds (R273) -/

/-- Every row is a request that waits for `serve`, the control URB too (00_scope.md R14). -/
theorem exec_eq_serve (i : Instr) (s : State) : ∃ run, exec i s = s.serve run := by
  cases i
  case urbControl x b => exact ⟨_, exec_urbControl x b s⟩
  all_goals
    dsimp only [exec]
    exact ⟨_, rfl⟩

theorem exec_of_fatal {s : State} (hf : s.fatal ≠ none) (i : Instr) : exec i s = .next s := by
  obtain ⟨r, hr⟩ := Option.ne_none_iff_exists'.1 hf
  obtain ⟨run, hrun⟩ := exec_eq_serve i s
  rw [hrun, State.serve_fatal hr]

theorem State.acquire_of_fatal {s : State} (hf : s.fatal ≠ none) : s.acquire = s := by
  rcases s.acquire_cases with h | ⟨-, -, hrunning, -⟩
  · exact h
  · exact absurd hrunning hf

/-- What is left of a step that is not RESET: the input is consumed, and a call is accepted or an answer
discarded. -/
inductive FatalStepRuns (s t : State) : Prop where
  | nothing (more : List Input) (h : t = { s with inputs := more })
  | accepted (c : Call) (more : List Input) (h : t = State.accept { s with inputs := more } c)
  | discarded (c : Tag) (a : Answer) (more : List Input)
      (h : t = State.discard { s with inputs := more } c a)

theorem step_cases_of_fatal {s t : State} (hf : s.fatal ≠ none)
    (hreset : ∀ key more, s.inputs ≠ .reset key :: more) (h : step s = .next t) :
    FatalStepRuns s t := by
  cases step_cases h with
  | idle hi h => exact .nothing s.inputs h
  | instr c more i hi hd h =>
    rw [exec_of_fatal (s := State.accept { s with inputs := more } c) hf] at h
    cases h
    exact .accepted c more rfl
  | malformed c more e hi hd h =>
    rcases rejectApdu_cases h with ⟨hrunning, -⟩ | ⟨-, h⟩
    · exact absurd hrunning hf
    · exact .accepted c more h
  | acquire more hi h =>
    exact .nothing more (h.trans (State.acquire_of_fatal (s := { s with inputs := more }) hf))
  | answer c a more hi h =>
    rcases State.resume_cases Config.units { s with inputs := more } c a with
      ⟨hrunning, -⟩ | ⟨-, hdiscard⟩
    · exact absurd hrunning hf
    · exact .discarded c a more (h.trans hdiscard)
  | reset key more hi h => exact absurd hi (hreset key more)

end Machine

/-- Settles O48: no request is served, and of a step only the arrival of a call or an answer is left; a
call's buffer is placed above every byte already given out. -/
theorem nothingRunsWhileFatal : Obligations.NothingRunsWhileFatal := by
  refine ⟨fun i s hf => exec_of_fatal hf i, fun s t hf hreset h => ?_⟩
  cases step_cases_of_fatal hf hreset h with
  | nothing more h =>
    subst h
    exact ⟨rfl, rfl, rfl, rfl, rfl, rfl, rfl, fun _ _ => rfl, .inl rfl⟩
  | accepted c more h =>
    subst h
    exact ⟨rfl, rfl, rfl, rfl, rfl, rfl, rfl,
      fun _ hb => State.read_accept_of_lt { s with inputs := more } c hb,
      .inr (.inl ⟨s.arriving c, rfl⟩)⟩
  | discarded c a more h =>
    subst h
    exact ⟨rfl, rfl, rfl, rfl, rfl, rfl, rfl, fun _ _ => rfl, .inr (.inr ⟨c, a, rfl⟩)⟩

end Sys2Proof
end

section
/-! The statements of 70_reset_and_hazards.md: the step without an input, RESET from any state, and which
runs are not at their end. -/

namespace Sys2Proof

open Machine

namespace Machine

/-! ### The step without an input (R302; 60_exceptions.md R273) -/

section
variable {s : State}

theorem step_of_no_input (hi : s.inputs = []) : step s = s.idle := by
  rw [step, hi]

theorem State.idle_running (hf : s.fatal = none) : s.idle = .next s := by
  rw [State.idle, hf]

theorem State.idle_fatal {r : FatalReason} (hf : s.fatal = some r) :
    s.idle = .fault (.fatalStop r) := by
  rw [State.idle, hf]

end

/-! ### The end of a run (R314) -/

theorem atEnd_reset : State.reset.atEnd = true := rfl

/-- What a run at its end no longer holds: points 1 and 2 of R314, and the agents of point 3. -/
theorem State.quiet_of_atEnd {s : State} (h : s.atEnd = true) :
    s.fatal = none ∧ s.dlvq = [] ∧ s.agents = [] := by
  simp only [State.atEnd, Bool.and_eq_true, decide_eq_true_eq, List.isEmpty_iff] at h
  obtain ⟨⟨⟨hfatal, hdlvq⟩, hagents⟩, -⟩ := h
  exact ⟨hfatal, hdlvq, hagents⟩

end Machine

/-- Settles O47: without an input the step is `idle`, which FATAL decides. -/
theorem noInputWaitsOrIsTheFatalFault : Obligations.NoInputWaitsOrIsTheFatalFault := by
  intro s hi
  rw [step_of_no_input hi]
  exact ⟨State.idle_running, fun r => State.idle_fatal⟩

/-- Settles O49: the state written out is that of `doReset`. -/
theorem resetClearsTheBlock : Obligations.ResetClearsTheBlock :=
  fun _ _ _ hi => step_of_reset hi

/-- Settles O51: each of the three is something a run at its end no longer holds. -/
theorem fatalOrPendingRunsAreNotAtTheirEnd : Obligations.FatalOrPendingRunsAreNotAtTheirEnd := by
  refine ⟨atEnd_reset, fun s hpending => Bool.eq_false_iff.2 fun hend => ?_⟩
  obtain ⟨hfatal, hdlvq, hagents⟩ := State.quiet_of_atEnd hend
  rcases hpending with h | h | h
  · exact h hfatal
  · exact h hdlvq
  · exact h hagents

end Sys2Proof
end
